-- ==== Sys2Proof/Word.lean ====
section
/-! DEFINITION. The plainest types and tables of the model: bytes, port and station numbers, fixed-length
tables and the canonical order of ports and stations (spec/00_scope.md 4.4). -/

namespace Sys2Proof

/-- One byte of a frame. -/
abbrev Byte := BitVec 8

/-- A station, 0 to 9 (00_scope.md 4.4: station s is the one connected to port s). -/
abbrev StationId := Fin 10

/-- A link port, 0 to 11 (00_scope.md 1.3: 0 to 9 station, 10 storage, 11 supervisor). -/
abbrev Port := Fin 12

/-- A station group, 0 to 3. -/
abbrev Group := Fin 4

/-- A freeze scope (R125): 0 to 3 the groups, 4 PLANT. -/
abbrev ScopeId := Fin 5

/-- A table of fixed length given entry by entry. -/
def tabulate {α : Type} {n : Nat} (f : Fin n → α) : Vector α n := ⟨⟨List.ofFn f⟩, by simp⟩

/-- The entry of a table at an index. -/
def look {α : Type} {n : Nat} (v : Vector α n) (i : Fin n) : α := v[i.val]'i.isLt

/-- A table with one entry replaced. -/
def put {α : Type} {n : Nat} (v : Vector α n) (i : Fin n) (x : α) : Vector α n := v.set i.val x i.isLt

/-- The stations in ascending port number, the order 00_scope.md 4.4 fixes. -/
def stationIds : List StationId := [0, 1, 2, 3, 4, 5, 6, 7, 8, 9]

/-- The ports in ascending number. -/
def allPorts : List Port := [0, 1, 2, 3, 4, 5, 6, 7, 8, 9, 10, 11]

/-- The five freeze scopes in ascending number. -/
def scopeIds : List ScopeId := [0, 1, 2, 3, 4]

/-- The PLANT scope. -/
def plantScope : ScopeId := 4

/-- The scope of a group. -/
def groupScope (g : Group) : ScopeId := ⟨g.val, by omega⟩

/-- The port of a station's controller. -/
def stationPort (i : StationId) : Port := ⟨i.val, by omega⟩

/-- The storage port. -/
def storagePort : Port := 10

/-- The supervisor port. -/
def supervisorPort : Port := 11

/-- A sum over all ten stations. -/
def sumStations (f : StationId → Nat) : Nat := (stationIds.map f).sum

end Sys2Proof
end

