-- ==== Sys2Proof/Syntax.lean ====
section
/-! DEFINITION. The commands of the block: one constructor per row of spec/opcode_table.json.
The request rows name the port the request arrives on and the master's tag, then the payload fields
the layout table of R166 gives the kind. -/

namespace Sys2Proof

/-- The commands and events of the ZT48, one constructor per row of spec/opcode_table.json.
Request rows (everything from `undefinedKind` to `captRelease`, and `undefinedAction`) are a request
half that reaches the request queue of port `p` (step 5 of R167). -/
inductive Instr where
  /-- POWER_ON (R179): `selected` has bit p set when port p's select line is asserted as the pin is released. -/
  | powerOn (selected : BitVec 12)
  /-- FRAME_START (R164). -/
  | frameStart (p : Port)
  /-- FRAME_COMPLETE (R167): the 112 bits of the request half, first bit shifted in at bit 111. -/
  | frameComplete (p : Port) (half : BitVec 112)
  /-- FRAMING_ERROR (R163): select released after an edge count other than 112. -/
  | framingError (p : Port)
  /-- UNDEFINED_KIND (R172): a kind code that names no kind. -/
  | undefinedKind (p : Port) (tag : Byte) (kind : Byte)
  /-- JOIN (R53, R93). -/
  | join (p : Port) (tag : Byte)
  /-- LEAVE (R54, R94). -/
  | leave (p : Port) (tag : Byte)
  /-- TELEMETRY (R55 to R57). -/
  | telemetry (p : Port) (tag : Byte) (meas avail : BitVec 16)
  /-- CEIL-TAKE (R75 to R80). -/
  | ceilTake (p : Port) (tag : Byte)
  /-- CEIL-APPLY (R81 to R83). -/
  | ceilApply (p : Port) (tag : Byte) (echo : BitVec 16)
  /-- STOR-TEL (R95, R96): meas is two's complement. -/
  | storTel (p : Port) (tag : Byte) (meas : BitVec 32) (soc bdis bchg : BitVec 16)
  /-- DISP-TAKE (R98, R99). -/
  | dispTake (p : Port) (tag : Byte)
  /-- ENTRY-READ (R67, R101). -/
  | entryRead (p : Port) (tag : Byte) (number page : Byte)
  /-- ATTN-READ (R161). -/
  | attnRead (p : Port) (tag : Byte)
  /-- ATTN-ACK (R160): 255 is ALL in either field. -/
  | attnAck (p : Port) (tag : Byte) (kind inst : Byte)
  /-- PARAM-SET (R175) of a parameter with no row of its own. -/
  | paramSet (p : Port) (tag : Byte) (id index : Byte) (value : BitVec 32)
  /-- PARAM-SET of STATION_RATING (R65). -/
  | stationRating (p : Port) (tag : Byte) (index : Byte) (value : BitVec 32)
  /-- PARAM-SET of STATION_GROUP (R66). -/
  | stationGroup (p : Port) (tag : Byte) (index : Byte) (value : BitVec 32)
  /-- PARAM-SET of MON_MODE (R119). -/
  | monMode (p : Port) (tag : Byte) (index : Byte) (value : BitVec 32)
  /-- PARAM-SET of QUEUE_DEPTH (R168). -/
  | queueDepth (p : Port) (tag : Byte) (index : Byte) (value : BitVec 32)
  /-- PARAM-SET of URGENT (R171). -/
  | urgent (p : Port) (tag : Byte) (index : Byte) (value : BitVec 32)
  /-- PARAM-SET of ROUTE (R155). -/
  | route (p : Port) (tag : Byte) (index : Byte) (value : BitVec 32)
  /-- PARAM-SET of RAISE_STEP (R88). -/
  | raiseStep (p : Port) (tag : Byte) (index : Byte) (value : BitVec 32)
  /-- PARAM-GET (R175). -/
  | paramGet (p : Port) (tag : Byte) (id index : Byte)
  /-- ENG-START (R10). -/
  | engStart (p : Port) (tag : Byte)
  /-- ENG-HALT (R8, R9). -/
  | engHalt (p : Port) (tag : Byte)
  /-- METER (R11). -/
  | meter (p : Port) (tag : Byte) (value : BitVec 32) (intervalTag : BitVec 16)
  /-- PARK (R63). -/
  | park (p : Port) (tag : Byte) (station : Byte) (ceiling : BitVec 16)
  /-- UNPARK (R64). -/
  | unpark (p : Port) (tag : Byte) (station : Byte)
  /-- FAULT-CLEAR of a station (R116). -/
  | faultClear (p : Port) (tag : Byte) (station : Byte)
  /-- FAULT-CLEAR of the plant (R123). -/
  | faultClearPlant (p : Port) (tag : Byte)
  /-- FREEZE-RELEASE (R128): 0 to 3 a group, 4 PLANT, 255 ALL. -/
  | freezeRelease (p : Port) (tag : Byte) (scope : Byte)
  /-- PLANT-READ (R178). -/
  | plantRead (p : Port) (tag : Byte) (page : Byte)
  /-- HIST-READ (R17). -/
  | histRead (p : Port) (tag : Byte) (age : BitVec 16)
  /-- STAT-READ (R152). -/
  | statRead (p : Port) (tag : Byte) (page : Byte)
  /-- STAT-CTRL FREEZE (R145). -/
  | freeze (p : Port) (tag : Byte)
  /-- STAT-CTRL UNFREEZE (R145). -/
  | unfreeze (p : Port) (tag : Byte)
  /-- STAT-CTRL CLEAR-ALL (R151). -/
  | clearAll (p : Port) (tag : Byte)
  /-- STAT-CTRL CLEAR-OVF (R151): bit n names counter n. -/
  | clearOvf (p : Port) (tag : Byte) (counters : Byte)
  /-- STAT-CTRL PRESET (R151). -/
  | preset (p : Port) (tag : Byte) (counter : Byte) (value : BitVec 40)
  /-- STAT-CTRL CONFIGURE (R150): request bytes 4 to 11. -/
  | configure (p : Port) (tag : Byte) (counter : Byte) (record : BitVec 64)
  /-- STAT-CTRL FILTER (R148): request bytes 4 to 8. -/
  | filter (p : Port) (tag : Byte) (which : Byte) (record : BitVec 40)
  /-- STAT-CTRL FREEZE-ON-HARD (R144): request byte 4. -/
  | freezeOnHard (p : Port) (tag : Byte) (value : Byte)
  /-- CAPT-READ (R133). -/
  | captRead (p : Port) (tag : Byte) (index : Byte)
  /-- CAPT-RELEASE (R132). -/
  | captRelease (p : Port) (tag : Byte)
  /-- TIMER_EXPIRY (R4). -/
  | timerExpiry
  /-- PUBLICATION (R6). -/
  | publication
  /-- UNDEFINED_ACTION (R149): a STAT-CTRL action code that names none of the eight. -/
  | undefinedAction (p : Port) (tag : Byte) (action : Byte)
  deriving DecidableEq, Repr

end Sys2Proof
end

