-- ==== Sys2Proof/WellFormed.lean ====
section
/-! DEFINITION. Which command terms are well formed: the rows that share one wire form (a kind code, a STAT-CTRL
action, a PARAM-SET identifier, a FAULT-CLEAR target) are kept apart, so that each request half belongs to one row. -/

namespace Sys2Proof

/-- The kind codes the layout table of R166 names: 0 to 11 and 16 to 30. -/
def kindDefined (kind : Byte) : Bool :=
  kind.toNat ≤ 11 || (16 ≤ kind.toNat && kind.toNat ≤ 30)

/-- The parameter identifiers that have a row of their own in spec/opcode_table.json: STATION_RATING 17,
STATION_GROUP 18, MON_MODE 26, RAISE_STEP 28, QUEUE_DEPTH 29, URGENT 30 and ROUTE 31. -/
def hasOwnParamRow (id : Byte) : Bool := [17, 18, 26, 28, 29, 30, 31].contains id.toNat

/-- The check on a command's operands. Operand widths are in the types, so only the operands that would spell
another row of the table are ill formed. -/
def Instr.wellFormed : Instr → Bool
  | .undefinedKind _ _ kind => !kindDefined kind
  | .undefinedAction _ _ action => 8 ≤ action.toNat
  | .paramSet _ _ id _ _ => !hasOwnParamRow id
  | .faultClear _ _ station => station != 255#8
  | .powerOn _ | .frameStart _ | .frameComplete _ _ | .framingError _ | .join _ _ | .leave _ _
  | .telemetry _ _ _ _ | .ceilTake _ _ | .ceilApply _ _ _ | .storTel _ _ _ _ _ _ | .dispTake _ _
  | .entryRead _ _ _ _ | .attnRead _ _ | .attnAck _ _ _ _ | .stationRating _ _ _ _ | .stationGroup _ _ _ _
  | .monMode _ _ _ _ | .queueDepth _ _ _ _ | .urgent _ _ _ _ | .route _ _ _ _ | .raiseStep _ _ _ _
  | .paramGet _ _ _ _ | .engStart _ _ | .engHalt _ _ | .meter _ _ _ _ | .park _ _ _ _ | .unpark _ _ _
  | .faultClearPlant _ _ | .freezeRelease _ _ _ | .plantRead _ _ _ | .histRead _ _ _ | .statRead _ _ _
  | .freeze _ _ | .unfreeze _ _ | .clearAll _ _ | .clearOvf _ _ _ | .preset _ _ _ _ | .configure _ _ _ _
  | .filter _ _ _ _ | .freezeOnHard _ _ _ | .captRead _ _ _ | .captRelease _ _ | .timerExpiry | .publication => true

end Sys2Proof
end

