-- ==== Sys2Proof/Decode.lean ====
section
/-! DEFINITION. The command a table word spells. No row of spec/opcode_table.json gives bits (spec/98_reader.md:
n_rows_with_fixed 0), so no word spells a command. The frame half that spells a request (R166) is decoded in
Machine/Operands.lean, where the link ports use it. -/

namespace Sys2Proof

/-- The command whose table bits are the low `nbits` bits of `w`: none, since the table gives no row any bits. -/
def decodeTableWord (_nbits _w : Nat) : Option Instr := none

end Sys2Proof
end

