-- ==== Sys2Proof/Config.lean ====
section
/-! DEFINITION. The free values: what the manual leaves open and the machine goes on with. Each is a constant with
no body, so nothing can be proved of its value. -/

namespace Sys2Proof

/-- The FREEZE-ON-HARD setting that a STAT-CTRL writes when byte 4 is neither 0 nor 1: R166 gives the byte
1 for enabled and 0 for disabled and says nothing of other values (log entry 7). -/
opaque Config.freezeOnHardOther : Byte → Bool

/-- The order in which things that happen at the same instant are taken where the manual says either order is
possible (R142 for source events of separate steps, R72 and R80 for requests on different ports that become ready to
be taken at one publication or halt, R109 and R117 for the snapshot of a run start that follows a FAULT-CLEAR): the
n-th such choice, read modulo the number of candidates (log entries 6, 15, 24, 26 and 27). -/
opaque Config.freeOrder : Nat → Nat

end Sys2Proof
end

