-- ==== Sys2Proof/Machine/State.lean ====
section
/-! DEFINITION. The state of the block as plain data, with every register, queue, record, flag and pin the spec names,
its value at power-on (`State.reset`, R179), and the reasons a step can stop. -/

namespace Sys2Proof.Machine

/-! ### Station Table, Grant Unit and Monitor Array (R48, R71, R103) -/

/-- The states of a station entry (section 3.2). -/
inductive StationState where
  | absent | joining | online | stale | faulted | parked
  deriving DecidableEq, Repr

/-- An interlock record (R71). -/
structure Interlock where
  granted : Nat
  reserved : Nat
  takeTag : BitVec 16
  publications : Nat
  deriving DecidableEq, Repr

/-- A station entry (R48). The port field is the entry's place in the table. -/
structure Station where
  state : StationState
  rating : Nat
  group : Group
  meas : Nat
  avail : Nat
  age : Nat
  park : Option Nat
  applied : Nat
  interlock : Option Interlock
  ready : Bool
  /-- the eight monitor statuses, bit n for the event of code n (page 3 of ENTRY-READ) -/
  statuses : BitVec 8
  /-- the holding set, bit n for the monitor of code n (page 3 of ENTRY-READ) -/
  holding : BitVec 4
  overshootRun : Nat
  staleDuration : Nat
  deriving DecidableEq, Repr

/-- A ceiling take held while a run is in flight (R77): the station and its request's tag. -/
structure HeldTake where
  station : StationId
  tag : Byte
  deriving DecidableEq, Repr

/-- The modes of a monitor (R104), coded as MON_MODE codes them. -/
inductive MonMode where
  | off | warn | latched | cycle
  deriving DecidableEq, Repr

/-- The four monitors (R103). -/
inductive Monitor where
  | window | overshoot | plausibility | interlock
  deriving DecidableEq, Repr

/-- The eight monitor events (R103). -/
inductive MonEvent where
  | early | dead | overshoot | echoHigh | implausible | interlockErr | unpaired | takeTimeout
  deriving DecidableEq, Repr

/-! ### Storage Record (R91) -/

/-- The states of the storage record (R92). -/
inductive StorageState where
  | absent | joining | online | stale
  deriving DecidableEq, Repr

/-- The battery record (R91). -/
structure Storage where
  state : StorageState
  meas : Int
  soc : Nat
  bdis : Nat
  bchg : Nat
  age : Nat
  /-- the held dispatch take, by its request's tag (R99) -/
  held : Option Byte
  deriving DecidableEq, Repr

/-! ### Parameter Table (R175) -/

/-- The source of a sample (R13). -/
inductive SampleSource where
  | summed | metered
  deriving DecidableEq, Repr

/-- The settings of HARD_RESPONSE (R125). -/
inductive HardResponse where
  | report | freezeGroup | freezePlant
  deriving DecidableEq, Repr

/-- The parameters whose home is the Parameter Table (R175). STATION_RATING and STATION_GROUP live in the station
entries (section 3.7), QUEUE_DEPTH in the ports (R168) and ROUTE in the routing table (R155). -/
structure Params where
  interval : Nat
  winShort : Nat
  winLong : Nat
  limShort : Nat
  limLong : Nat
  plantRating : Nat
  sampleSource : SampleSource
  socTarget : Nat
  socGain : Nat
  recoveryCap : Nat
  socMin : Nat
  socMax : Nat
  tolSoft : Nat
  tolHard : Nat
  hardResponse : HardResponse
  freezeAuto : Nat
  telWmin : Nat
  telWmax : Nat
  telWdead : Nat
  ovsTol : Nat
  ovsCount : Nat
  plausTol : Nat
  faultCap : Nat
  monWindow : MonMode
  monOvershoot : MonMode
  monPlausibility : MonMode
  monInterlock : MonMode
  takeDeadline : Nat
  raiseStep : Nat
  /-- the URGENT list of R171: a kind code, or none for an empty entry -/
  urgent : Vector (Option Byte) 8
  deriving DecidableEq, Repr

/-! ### Envelope Engine (chapter 1) -/

/-- What the meter slot holds (R11). -/
structure MeterSample where
  value : Nat
  tag : BitVec 16
  deriving DecidableEq, Repr

/-- One station of a run's snapshot (R49). -/
structure StationSnap where
  state : StationState
  rating : Nat
  group : Group
  meas : Nat
  avail : Nat
  applied : Nat
  deriving DecidableEq, Repr

/-- The storage snapshot of a run (R91). -/
structure StorageSnap where
  state : StorageState
  meas : Int
  soc : Nat
  bdis : Nat
  bchg : Nat
  deriving DecidableEq, Repr

/-- The inputs a run fixes at its start (R4): from then to publication the run works on these alone. -/
structure RunInputs where
  number : BitVec 32
  stations : Vector StationSnap 10
  storage : StorageSnap
  params : Params
  meter : Option MeterSample
  deriving DecidableEq, Repr

/-- The engine's run states (section 1.2); a run in flight carries its inputs. -/
inductive RunState where
  | halted
  | running
  | inFlight (run : RunInputs)
  deriving DecidableEq, Repr

/-- The interval timer (R1): stopped, or running with the interval length it was started with. -/
inductive Timer where
  | stopped
  | running (interval : Nat)
  deriving DecidableEq, Repr

/-- An entry of the history ring (R16). -/
structure HistEntry where
  number : BitVec 32
  sample : Nat
  source : SampleSource
  clamped : Bool
  deriving DecidableEq, Repr

/-- An entry of an extremum queue (R18). -/
structure QueueEntry where
  number : BitVec 32
  value : Nat
  deriving DecidableEq, Repr

/-- The four extremum queues, each front first (section 1.8). -/
structure Extrema where
  shortMin : List QueueEntry
  shortMax : List QueueEntry
  longMin : List QueueEntry
  longMax : List QueueEntry
  deriving DecidableEq, Repr

/-- The Envelope Engine's state (sections 1.1 to 1.8). -/
structure Engine where
  run : RunState
  timer : Timer
  counter : BitVec 32
  meter : Option MeterSample
  /-- newest first: age a of R17 is position a; at most 600 entries -/
  history : List HistEntry
  queues : Extrema
  deriving DecidableEq, Repr

/-! ### Dispatch Allocator (R41) -/

/-- The plant states (R30, R34), NONE in the cleared record. -/
inductive PlantState where
  | free | absorb | curtail | support | short | excess | none
  deriving DecidableEq, Repr

/-- The published record (R41). The interval tag is the low 16 bits of the run number. -/
structure Published where
  number : BitVec 32
  rating : Nat
  sample : Nat
  source : SampleSource
  clamped : Bool
  lower : Nat
  upper : Nat
  collapsed : Bool
  gap : Nat
  plant : PlantState
  forecast : Nat
  fc : Nat
  u0 : Nat
  storageOnline : Bool
  bPref : Int
  b : Int
  allowance : Nat
  shortfall : Nat
  excess : Nat
  mask : Vector Bool 10
  offers : Vector Nat 10
  deriving DecidableEq, Repr

/-- The cleared record (R43). -/
def Published.cleared : Published :=
  { number := 0, rating := 0, sample := 0, source := .summed, clamped := false, lower := 0, upper := 0,
    collapsed := false, gap := 0, plant := .none, forecast := 0, fc := 0, u0 := 0, storageOnline := false,
    bPref := 0, b := 0, allowance := 0, shortfall := 0, excess := 0,
    mask := Vector.replicate 10 false, offers := Vector.replicate 10 0 }

/-! ### Ramp Monitor (chapter 7) -/

/-- A freeze scope with its clean-run count (R125). -/
structure Scope where
  frozen : Bool
  cleanRuns : Nat
  deriving DecidableEq, Repr

/-- A subrecord of the capture record's station list (R130). -/
structure CaptureStation where
  port : StationId
  state : StationState
  meas : Nat
  avail : Nat
  applied : Nat
  deriving DecidableEq, Repr

/-- The contents of the capture record (R130): the header, and the station list. -/
structure CaptureData where
  number : BitVec 32
  sample : Nat
  source : SampleSource
  clamped : Bool
  checked : Bool
  lower : Nat
  upper : Nat
  dUp : Int
  dDn : Int
  forecast : Nat
  fc : Nat
  u0 : Nat
  bPref : Int
  b : Int
  allowance : Nat
  shortfall : Nat
  excess : Nat
  plant : PlantState
  collapsed : Bool
  /-- the responsible station and its excess (R124) -/
  responsible : Option (StationId × Nat)
  /-- the scope frozen at this run (R125) -/
  frozenScope : Option ScopeId
  stations : List CaptureStation
  deriving DecidableEq, Repr

/-- The capture record with its capture state (R130, R131). -/
inductive Capture where
  | empty
  | loaded (data : CaptureData)
  | locked (data : CaptureData)
  deriving DecidableEq, Repr

/-- The Ramp Monitor's state: the four plant ramp statuses, the five scopes and the capture record. -/
structure Ramp where
  softUp : Bool
  softDown : Bool
  hardUp : Bool
  hardDown : Bool
  scopes : Vector Scope 5
  capture : Capture
  deriving DecidableEq, Repr

/-! ### Statistics Unit (chapter 8) -/

/-- The 21 sources (R137). -/
inductive StatSource where
  | run | curtail | absorb | support | shortfall | excess | collapse | rampSoft | rampHard | meterFallback
  | raiseFull | raisePartial | interlockEnd | unpairedApply | staleEntry | faultEntry
  | frameError | crcError | drop | filter0 | filter1
  deriving DecidableEq, Repr

/-- The modes of a counter (R140). -/
inductive CountMode where
  | occurrence | magnitude | edge
  deriving DecidableEq, Repr

/-- A counter's control record (R138). -/
structure Control where
  source : StatSource
  mask : BitVec 12
  mode : CountMode
  threshold : BitVec 32
  invert : Bool
  freezeOnOverflow : Bool
  enable : Bool
  deriving DecidableEq, Repr

/-- A programmable counter: control record, 40-bit value, overflow flag and edge flag. -/
structure Counter where
  control : Control
  value : BitVec 40
  overflow : Bool
  edge : Bool
  deriving DecidableEq, Repr

/-- A frame filter record (R148). -/
structure Filter where
  portMatch : BitVec 4
  portMask : BitVec 4
  kindMatch : Byte
  kindMask : Byte
  tagMatch : Byte
  tagMask : Byte
  deriving DecidableEq, Repr

/-- The freeze reason: every cause that froze the unit in the step that froze it (R145). -/
structure FreezeReason where
  manual : Bool
  overflow : Bool
  hard : Bool
  deriving DecidableEq, Repr

/-- The Statistics Unit's state. Residency counters 0 to 5 are FREE to EXCESS, 6 is COLLAPSED (R146). -/
structure Stats where
  counters : Vector Counter 8
  filters : Vector Filter 2
  residency : Vector Nat 7
  runCounter : BitVec 32
  frozen : Bool
  reason : FreezeReason
  freezeOnHard : Bool
  deriving DecidableEq, Repr

/-! ### Attention Router (chapter 9) -/

/-- The twelve cause kinds (R154). -/
inductive CauseKind where
  | stnMonitor | raiseReady | stnStale | storeStale | rampSoft | rampHard | collapse | shortfall | excess
  | freeze | statsFreeze | meterFallback
  deriving DecidableEq, Repr

/-- How an entry is released (R155). -/
inductive Release where
  | ack | clear
  deriving DecidableEq, Repr

/-- A routing entry (R155). -/
structure Route where
  mask : BitVec 12
  ownPort : Bool
  release : Release
  deriving DecidableEq, Repr

/-- An entry of a pending set (R157). `inst` is the station for the station kinds and 0 otherwise. -/
structure PendingEntry where
  kind : CauseKind
  inst : StationId
  release : Release
  count : Nat
  locked : Bool
  deriving DecidableEq, Repr

/-- A port's pending set, oldest first: `entries`, then `fresh`. `fresh` holds the entries the event being taken has
added so far, in ascending kind and station (R157), and is empty between events (the model's own field, log entry 9). -/
structure PendingSet where
  entries : List PendingEntry
  fresh : List PendingEntry
  deriving DecidableEq, Repr

/-- The Attention Router's state. The attention lines are computed from the pending sets (R158). -/
structure Router where
  routes : Vector Route 12
  sets : Vector PendingSet 12
  deriving DecidableEq, Repr

/-! ### Link Ports (chapter 10) -/

/-- The answer codes of R166. -/
inductive AnswerCode where
  | ok | okClamped | okIgnored | partialPool | partialFrozen | fixed
  | refusedKind | refusedRole | refusedState | refusedRange | refusedParam | refusedUnpaired | refusedTag
  deriving DecidableEq, Repr

/-- An action of STAT-CTRL with its arguments (R149). -/
inductive StatAction where
  | freeze
  | unfreeze
  | clearAll
  | clearOvf (counters : Byte)
  | preset (counter : Byte) (value : BitVec 40)
  | configure (counter : Byte) (record : BitVec 64)
  | filter (which : Byte) (record : BitVec 40)
  | freezeOnHard (value : Byte)
  | undefined (action : Byte)
  deriving DecidableEq, Repr

/-- What a queued request asks: its kind with the payload fields the layout table of R166 gives the kind.
`undefined` keeps a kind code that names no kind. -/
inductive Body where
  | undefined (kind : Byte)
  | join
  | leave
  | telemetry (meas avail : BitVec 16)
  | ceilTake
  | ceilApply (echo : BitVec 16)
  | storTel (meas : BitVec 32) (soc bdis bchg : BitVec 16)
  | dispTake
  | entryRead (number page : Byte)
  | attnRead
  | attnAck (kind inst : Byte)
  | paramSet (id index : Byte) (value : BitVec 32)
  | paramGet (id index : Byte)
  | engStart
  | engHalt
  | meter (value : BitVec 32) (intervalTag : BitVec 16)
  | park (station : Byte) (ceiling : BitVec 16)
  | unpark (station : Byte)
  | faultClear (station : Byte)
  | freezeRelease (scope : Byte)
  | plantRead (page : Byte)
  | histRead (age : BitVec 16)
  | statRead (page : Byte)
  | statCtrl (action : StatAction)
  | captRead (index : Byte)
  | captRelease
  deriving DecidableEq, Repr

/-- A request as it stands in a request queue: the master's tag and what it asks. -/
structure Request where
  tag : Byte
  body : Body
  deriving DecidableEq, Repr

/-- An answer as it stands in a reply queue: answer bytes 1 to 11 (R166). -/
structure Answer where
  kind : Byte
  tag : Byte
  code : AnswerCode
  payload : BitVec 64
  deriving DecidableEq, Repr

/-- The answer half a port fixes at the start of a frame (R164); no answer means the NONE answer. -/
structure AnswerHalf where
  status : Byte
  answer : Option Answer
  crc : BitVec 16
  deriving DecidableEq, Repr

/-- The receiving side of a link: select released, a frame in progress, or (after a power-on with select asserted,
R179) waiting for select to be released. -/
inductive Link where
  | idle
  | inFrame (half : AnswerHalf)
  | awaitRelease
  deriving DecidableEq, Repr

/-- A port handler (R169). -/
inductive Handler where
  | idle | busy
  deriving DecidableEq, Repr

/-- QUEUE_DEPTH of a port (R168): 1 or 4. -/
inductive Depth where
  | one | four
  deriving DecidableEq, Repr

/-- A link port's state: its queues oldest first, its handler, its two flags, its depth and its link. -/
structure PortState where
  requests : List Request
  replies : List Answer
  handler : Handler
  drop : Bool
  ferr : Bool
  depth : Depth
  link : Link
  deriving DecidableEq, Repr

/-! ### The whole block -/

/-- The state of the block, with the queue of commands that wait for it (`pending`, first in first out). Two fields
are the model's own: `choices` counts the free choices taken (log entry 6), and `lastClear` names the station of a
FAULT-CLEAR after which no other event has happened (log entry 24). -/
structure State where
  params : Params
  engine : Engine
  published : Published
  stations : Vector Station 10
  heldTakes : List HeldTake
  storage : Storage
  ramp : Ramp
  stats : Stats
  router : Router
  ports : Vector PortState 12
  choices : Nat
  lastClear : Option StationId
  pending : List Instr
  deriving DecidableEq, Repr

/-- The reasons the machine stops with a fault. There is none: the manual gives every command an effect in every
state, so the type has no constructor. -/
inductive Fault where
  deriving DecidableEq, Repr

/-- The reasons a command is refused. -/
inductive Refusal where
  /-- Raised by exec's arm of a command that has no meaning yet, by its mnemonic; safe, the machine stops. No arm
  raises it in this model. -/
  | notModelled (mnemonic : String)
  deriving DecidableEq, Repr

/-! ### Power-on values (R179) -/

/-- The parameter defaults (R175, R103, R171). -/
def Params.default : Params :=
  { interval := 200, winShort := 10, winLong := 300, limShort := 3000, limLong := 10000, plantRating := 100000,
    sampleSource := .summed, socTarget := 500, socGain := 0, recoveryCap := 0, socMin := 50, socMax := 950,
    tolSoft := 500, tolHard := 2000, hardResponse := .freezeGroup, freezeAuto := 0, telWmin := 0, telWmax := 3,
    telWdead := 25, ovsTol := 200, ovsCount := 3, plausTol := 200, faultCap := 1000, monWindow := .warn,
    monOvershoot := .latched, monPlausibility := .warn, monInterlock := .cycle, takeDeadline := 2, raiseStep := 100,
    urgent := #v[some 2, some 10, some 23, some 24, some 19, none, none, none] }

/-- Empty extremum queues. -/
def Extrema.empty : Extrema := { shortMin := [], shortMax := [], longMin := [], longMax := [] }

/-- The engine at power-on (section 1.10). -/
def Engine.reset : Engine :=
  { run := .halted, timer := .stopped, counter := 0, meter := none, history := [], queues := Extrema.empty }

/-- A station entry at power-on (R69, R90, R120). -/
def Station.reset : Station :=
  { state := .absent, rating := 0, group := 0, meas := 0, avail := 0, age := 0, park := none, applied := 0,
    interlock := none, ready := false, statuses := 0, holding := 0, overshootRun := 0, staleDuration := 0 }

/-- The storage record at power-on (R102). -/
def Storage.reset : Storage :=
  { state := .absent, meas := 0, soc := 0, bdis := 0, bchg := 0, age := 0, held := none }

/-- A released scope with a clean-run count of 0 (R129). -/
def Scope.released : Scope := { frozen := false, cleanRuns := 0 }

/-- The Ramp Monitor at power-on (R136). -/
def Ramp.reset : Ramp :=
  { softUp := false, softDown := false, hardUp := false, hardDown := false,
    scopes := Vector.replicate 5 Scope.released, capture := .empty }

/-- A control record at power-on (R153). -/
def Control.reset : Control :=
  { source := .run, mask := 0, mode := .occurrence, threshold := 0, invert := false, freezeOnOverflow := false,
    enable := false }

/-- A counter at power-on (R153). -/
def Counter.reset : Counter := { control := Control.reset, value := 0, overflow := false, edge := false }

/-- A filter record at power-on (R148). -/
def Filter.reset : Filter :=
  { portMatch := 0, portMask := 0, kindMatch := 0, kindMask := 0, tagMatch := 0, tagMask := 0 }

/-- The empty freeze reason. -/
def FreezeReason.empty : FreezeReason := { manual := false, overflow := false, hard := false }

/-- The Statistics Unit at power-on (R153). -/
def Stats.reset : Stats :=
  { counters := Vector.replicate 8 Counter.reset, filters := Vector.replicate 2 Filter.reset,
    residency := Vector.replicate 7 0, runCounter := 0, frozen := false, reason := FreezeReason.empty,
    freezeOnHard := false }

/-- An empty pending set. -/
def PendingSet.empty : PendingSet := { entries := [], fresh := [] }

/-- The default routing entry of a kind by its code (R155). -/
def Route.default (code : Fin 12) : Route :=
  { mask := if code.val = 3 then 0xC00 else 0x800
    ownPort := decide (code.val ≤ 2)
    release := if code.val = 1 then .clear else .ack }

/-- The router at power-on (R162). -/
def Router.reset : Router :=
  { routes := tabulate Route.default, sets := Vector.replicate 12 PendingSet.empty }

/-- A port at power-on (R174). -/
def PortState.reset : PortState :=
  { requests := [], replies := [], handler := .idle, drop := false, ferr := false, depth := .four, link := .idle }

/-- The block right after power-on, with no select line asserted and no command waiting (R179). -/
def State.reset : State :=
  { params := Params.default, engine := Engine.reset, published := Published.cleared,
    stations := Vector.replicate 10 Station.reset, heldTakes := [], storage := Storage.reset, ramp := Ramp.reset,
    stats := Stats.reset, router := Router.reset, ports := Vector.replicate 12 PortState.reset, choices := 0,
    lastClear := none, pending := [] }

end Sys2Proof.Machine
end

