-- ==== Sys2Proof/Machine/Operands.lean ====
section
/-! DEFINITION. The operand forms of the frames: the numeric codes of R137, R154 and R166, the fields of a request
half (R166, R175), and the pieces an answer payload is put together from. -/

namespace Sys2Proof.Machine

/-! ### Ports and roles (R172) -/

/-- The role a port number fixes (R172). -/
inductive Role where
  | station (i : StationId)
  | storage
  | supervisor
  deriving DecidableEq, Repr

/-- The role of a port: 0 to 9 station, 10 storage, 11 supervisor. -/
def roleOf (p : Port) : Role :=
  if h : p.val < 10 then .station ⟨p.val, h⟩ else if p.val = 10 then .storage else .supervisor

/-- The table entry an index byte names, none beyond the table's end. -/
def index? (n : Nat) (x : Nat) : Option (Fin n) := if h : x < n then some ⟨x, h⟩ else none

/-! ### Codes -/

/-- Station states as R166 codes them. -/
def StationState.code : StationState → Nat
  | .absent => 0 | .joining => 1 | .online => 2 | .stale => 3 | .faulted => 4 | .parked => 5

/-- Storage states as R166 codes them. -/
def StorageState.code : StorageState → Nat
  | .absent => 0 | .joining => 1 | .online => 2 | .stale => 3

/-- Plant states as the status byte codes them (R166). -/
def PlantState.code : PlantState → Nat
  | .free => 0 | .absorb => 1 | .curtail => 2 | .support => 3 | .short => 4 | .excess => 5 | .none => 6

/-- Answer codes (R166). -/
def AnswerCode.code : AnswerCode → Nat
  | .ok => 1 | .okClamped => 2 | .okIgnored => 3 | .partialPool => 4 | .partialFrozen => 5 | .fixed => 6
  | .refusedKind => 8 | .refusedRole => 9 | .refusedState => 10 | .refusedRange => 11 | .refusedParam => 12
  | .refusedUnpaired => 13 | .refusedTag => 14

/-- Monitor modes as MON_MODE codes them (R175). -/
def MonMode.code : MonMode → Nat
  | .off => 0 | .warn => 1 | .latched => 2 | .cycle => 3

/-- The mode a stored MON_MODE value names; a value above 3 is stored as 3 (R176). -/
def MonMode.ofCode : Nat → MonMode
  | 0 => .off | 1 => .warn | 2 => .latched | _ => .cycle

/-- The place of a monitor in the holding set (R166, page 3 of ENTRY-READ). -/
def Monitor.code : Monitor → Nat
  | .window => 0 | .overshoot => 1 | .plausibility => 2 | .interlock => 3

/-- The place of a monitor event in the statuses (R166, page 3 of ENTRY-READ). -/
def MonEvent.code : MonEvent → Nat
  | .early => 0 | .dead => 1 | .overshoot => 2 | .echoHigh => 3 | .implausible => 4 | .interlockErr => 5
  | .unpaired => 6 | .takeTimeout => 7

/-- The monitor an event belongs to (R103). -/
def MonEvent.monitor : MonEvent → Monitor
  | .early | .dead => .window
  | .overshoot | .echoHigh => .overshoot
  | .implausible => .plausibility
  | .interlockErr | .unpaired | .takeTimeout => .interlock

/-- The settings of SAMPLE_SOURCE (R175). -/
def SampleSource.code : SampleSource → Nat
  | .summed => 0 | .metered => 1

/-- The setting a stored SAMPLE_SOURCE names; a value above 1 is stored as 1 (R176). -/
def SampleSource.ofCode : Nat → SampleSource
  | 0 => .summed | _ => .metered

/-- The settings of HARD_RESPONSE (R175). -/
def HardResponse.code : HardResponse → Nat
  | .report => 0 | .freezeGroup => 1 | .freezePlant => 2

/-- The setting a stored HARD_RESPONSE names; a value above 2 is stored as 2 (R176). -/
def HardResponse.ofCode : Nat → HardResponse
  | 0 => .report | 1 => .freezeGroup | _ => .freezePlant

/-- The codes of the cause kinds (R154). -/
def CauseKind.code : CauseKind → Fin 12
  | .stnMonitor => 0 | .raiseReady => 1 | .stnStale => 2 | .storeStale => 3 | .rampSoft => 4 | .rampHard => 5
  | .collapse => 6 | .shortfall => 7 | .excess => 8 | .freeze => 9 | .statsFreeze => 10 | .meterFallback => 11

/-- The station kinds, which have one firing per station (R154: codes 0 to 2). -/
def CauseKind.isStation : CauseKind → Bool
  | .stnMonitor | .raiseReady | .stnStale => true
  | .storeStale | .rampSoft | .rampHard | .collapse | .shortfall | .excess | .freeze | .statsFreeze
  | .meterFallback => false

/-- The codes of the sources (R137). -/
def StatSource.code : StatSource → Nat
  | .run => 0 | .curtail => 1 | .absorb => 2 | .support => 3 | .shortfall => 4 | .excess => 5 | .collapse => 6
  | .rampSoft => 7 | .rampHard => 8 | .meterFallback => 9 | .raiseFull => 10 | .raisePartial => 11
  | .interlockEnd => 12 | .unpairedApply => 13 | .staleEntry => 14 | .faultEntry => 15 | .frameError => 16
  | .crcError => 17 | .drop => 18 | .filter0 => 19 | .filter1 => 20

/-- The source a code names, none above 20 (R150). -/
def StatSource.ofCode : Nat → Option StatSource
  | 0 => some .run | 1 => some .curtail | 2 => some .absorb | 3 => some .support | 4 => some .shortfall
  | 5 => some .excess | 6 => some .collapse | 7 => some .rampSoft | 8 => some .rampHard
  | 9 => some .meterFallback | 10 => some .raiseFull | 11 => some .raisePartial | 12 => some .interlockEnd
  | 13 => some .unpairedApply | 14 => some .staleEntry | 15 => some .faultEntry | 16 => some .frameError
  | 17 => some .crcError | 18 => some .drop | 19 => some .filter0 | 20 => some .filter1 | _ => none

/-- The run-scoped sources are codes 0 to 9 (R137). -/
def StatSource.isRun (x : StatSource) : Bool := x.code ≤ 9

/-- The codes of a counter's modes (R166, STAT-READ 8 to 15). -/
def CountMode.code : CountMode → Nat
  | .occurrence => 0 | .magnitude => 1 | .edge => 2

/-- The mode a code names; 3 names none (R166). -/
def CountMode.ofCode : Nat → Option CountMode
  | 0 => some .occurrence | 1 => some .magnitude | 2 => some .edge | _ => none

/-- QUEUE_DEPTH as a number of frames (R168). -/
def Depth.frames : Depth → Nat
  | .one => 1 | .four => 4

/-- The depth a write stores: 4 for any value other than 1 or 4 (R168). -/
def Depth.ofValue : Nat → Depth
  | 1 => .one | _ => .four

/-- The kind code of a request (R166). -/
def Body.kind : Body → Byte
  | .undefined k => k
  | .join => 1 | .leave => 2 | .telemetry _ _ => 3 | .ceilTake => 4 | .ceilApply _ => 5 | .storTel _ _ _ _ => 6
  | .dispTake => 7 | .entryRead _ _ => 8 | .attnRead => 9 | .attnAck _ _ => 10 | .paramSet _ _ _ => 16
  | .paramGet _ _ => 17 | .engStart => 18 | .engHalt => 19 | .meter _ _ => 20 | .park _ _ => 21 | .unpark _ => 22
  | .faultClear _ => 23 | .freezeRelease _ => 24 | .plantRead _ => 25 | .histRead _ => 26 | .statRead _ => 27
  | .statCtrl _ => 28 | .captRead _ => 29 | .captRelease => 30

/-- The kind code of idle frames. -/
def idleKind : Byte := 0

/-- The kind code of PORT-RESET. -/
def portResetKind : Byte := 11

/-! ### The request half (R166): byte 0 is the first byte, most significant bit first -/

/-- Byte 0 of a request half. -/
def halfKind (half : BitVec 112) : Byte := half.extractLsb' 104 8

/-- Byte 1 of a request half. -/
def halfTag (half : BitVec 112) : Byte := half.extractLsb' 96 8

/-- Bytes 2 to 11 of a request half. -/
def halfPayload (half : BitVec 112) : BitVec 80 := half.extractLsb' 16 80

/-- Bytes 0 to 11 of a request half, which the CRC covers. -/
def halfMessage (half : BitVec 112) : BitVec 96 := half.extractLsb' 16 96

/-- Bytes 12 and 13 of a request half. -/
def halfCrc (half : BitVec 112) : BitVec 16 := half.extractLsb' 0 16

/-- Payload byte n, 2 to 11 (R166). -/
def payloadByte (x : BitVec 80) (n : Nat) : Byte := x.extractLsb' (8 * (11 - n)) 8

/-- The two payload bytes from byte n on, most significant first. -/
def payloadWord (x : BitVec 80) (n : Nat) : BitVec 16 := x.extractLsb' (8 * (10 - n)) 16

/-- The four payload bytes from byte n on, most significant first. -/
def payloadLong (x : BitVec 80) (n : Nat) : BitVec 32 := x.extractLsb' (8 * (8 - n)) 32

/-- Request bytes 4 to 8, the five argument bytes of PRESET and FILTER. -/
def payloadArgs5 (x : BitVec 80) : BitVec 40 := x.extractLsb' 24 40

/-- Request bytes 4 to 11, the eight argument bytes of CONFIGURE. -/
def payloadArgs8 (x : BitVec 80) : BitVec 64 := x.extractLsb' 0 64

/-- The STAT-CTRL action of a payload (R166): byte 2 the action, byte 3 the counter or filter, arguments from byte 4. -/
def StatAction.ofPayload (x : BitVec 80) : StatAction :=
  let arg := payloadByte x 3
  match (payloadByte x 2).toNat with
  | 0 => .freeze
  | 1 => .unfreeze
  | 2 => .clearAll
  | 3 => .clearOvf (payloadByte x 4)
  | 4 => .preset arg (payloadArgs5 x)
  | 5 => .configure arg (payloadArgs8 x)
  | 6 => .filter arg (payloadArgs5 x)
  | 7 => .freezeOnHard (payloadByte x 4)
  | _ => .undefined (payloadByte x 2)

/-- What a request half asks, by the layout table of R166 and the payloads of R175 and section 11.2. Idle frames and
PORT-RESET never become requests (R167), so their codes stand with the undefined ones here. -/
def Body.ofPayload (kind : Byte) (x : BitVec 80) : Body :=
  match kind.toNat with
  | 1 => .join
  | 2 => .leave
  | 3 => .telemetry (payloadWord x 2) (payloadWord x 4)
  | 4 => .ceilTake
  | 5 => .ceilApply (payloadWord x 2)
  | 6 => .storTel (payloadLong x 2) (payloadWord x 6) (payloadWord x 8) (payloadWord x 10)
  | 7 => .dispTake
  | 8 => .entryRead (payloadByte x 2) (payloadByte x 3)
  | 9 => .attnRead
  | 10 => .attnAck (payloadByte x 2) (payloadByte x 3)
  | 16 => .paramSet (payloadByte x 2) (payloadByte x 3) (payloadLong x 4)
  | 17 => .paramGet (payloadByte x 2) (payloadByte x 3)
  | 18 => .engStart
  | 19 => .engHalt
  | 20 => .meter (payloadLong x 2) (payloadWord x 6)
  | 21 => .park (payloadByte x 2) (payloadWord x 3)
  | 22 => .unpark (payloadByte x 2)
  | 23 => .faultClear (payloadByte x 2)
  | 24 => .freezeRelease (payloadByte x 2)
  | 25 => .plantRead (payloadByte x 2)
  | 26 => .histRead (payloadWord x 2)
  | 27 => .statRead (payloadByte x 2)
  | 28 => .statCtrl (StatAction.ofPayload x)
  | 29 => .captRead (payloadByte x 2)
  | 30 => .captRelease
  | _ => .undefined kind

/-- The request a checked request half puts into the queue. -/
def Request.ofHalf (half : BitVec 112) : Request :=
  { tag := halfTag half, body := Body.ofPayload (halfKind half) (halfPayload half) }

/-! ### The other way: the request half a request travels in (R166) -/

/-- The kind codes and action codes a request may carry: `undefined` stands only for a code that names nothing. -/
def Body.wellFormed : Body → Bool
  | .undefined kind => !kindDefined kind
  | .statCtrl (.undefined action) => 8 ≤ action.toNat
  | _ => true

/-- Payload bytes 2 to 11 of a STAT-CTRL action (R166); bytes the action does not use are 0. -/
def StatAction.payload : StatAction → BitVec 80
  | .freeze => 0#8 ++ (0 : BitVec 72)
  | .unfreeze => 1#8 ++ (0 : BitVec 72)
  | .clearAll => 2#8 ++ (0 : BitVec 72)
  | .clearOvf counters => 3#8 ++ 0#8 ++ counters ++ (0 : BitVec 56)
  | .preset counter value => 4#8 ++ counter ++ value ++ (0 : BitVec 24)
  | .configure counter record => 5#8 ++ counter ++ record
  | .filter which record => 6#8 ++ which ++ record ++ (0 : BitVec 24)
  | .freezeOnHard value => 7#8 ++ 0#8 ++ value ++ (0 : BitVec 56)
  | .undefined action => action ++ (0 : BitVec 72)

/-- Payload bytes 2 to 11 of a request by the layout table of R166 and R175; bytes the kind does not use are 0. -/
def Body.payload : Body → BitVec 80
  | .telemetry meas avail => meas ++ avail ++ (0 : BitVec 48)
  | .ceilApply echo => echo ++ (0 : BitVec 64)
  | .storTel meas soc bdis bchg => meas ++ soc ++ bdis ++ bchg
  | .entryRead number page => number ++ page ++ (0 : BitVec 64)
  | .attnAck kind inst => kind ++ inst ++ (0 : BitVec 64)
  | .paramSet id index value => id ++ index ++ value ++ (0 : BitVec 32)
  | .paramGet id index => id ++ index ++ (0 : BitVec 64)
  | .meter value tag => value ++ tag ++ (0 : BitVec 32)
  | .park station ceiling => station ++ ceiling ++ (0 : BitVec 56)
  | .unpark station => station ++ (0 : BitVec 72)
  | .faultClear station => station ++ (0 : BitVec 72)
  | .freezeRelease scope => scope ++ (0 : BitVec 72)
  | .plantRead page => page ++ (0 : BitVec 72)
  | .histRead age => age ++ (0 : BitVec 64)
  | .statRead page => page ++ (0 : BitVec 72)
  | .statCtrl action => action.payload
  | .captRead index => index ++ (0 : BitVec 72)
  | .undefined _ | .join | .leave | .ceilTake | .dispTake | .attnRead | .engStart | .engHalt | .captRelease => 0

/-- Bytes 0 to 11 of the half that carries a request (R166). -/
def Request.message (r : Request) : BitVec 96 := r.body.kind ++ r.tag ++ r.body.payload

/-! ### Answers: the fields of a payload, most significant byte first (R166) -/

/-- What a serving block answers: a code and payload bytes 4 to 11. -/
structure Reply where
  code : AnswerCode
  payload : BitVec 64
  deriving DecidableEq, Repr

/-- A REFUSED answer carries a zero payload (R172). -/
def refuse (c : AnswerCode) : Reply := { code := c, payload := 0 }

/-- One answer byte. -/
def f8 (x : Nat) : BitVec 8 := BitVec.ofNat 8 x

/-- An unsigned two-byte field. -/
def f16 (x : Nat) : BitVec 16 := BitVec.ofNat 16 x

/-- An unsigned three-byte field. -/
def f24 (x : Nat) : BitVec 24 := BitVec.ofNat 24 x

/-- An unsigned four-byte field. -/
def f32 (x : Nat) : BitVec 32 := BitVec.ofNat 32 x

/-- A two's complement three-byte field. -/
def s24 (x : Int) : BitVec 24 := BitVec.ofInt 24 x

/-- A two's complement four-byte field. -/
def s32 (x : Int) : BitVec 32 := BitVec.ofInt 32 x

/-- The weight of a flag that stands at bit n of an answer byte. -/
def flagAt (n : Nat) (b : Bool) : Nat := if b then 2 ^ n else 0

/-- A table of flags as a number, bit n for entry n. -/
def bitsOf {n : Nat} (v : Vector Bool n) : Nat := ((List.finRange n).map fun i => flagAt i.val (look v i)).sum

/-- The interval tag of an interval number: its low 16 bits (00_scope.md 4.3). -/
def intervalTag (k : BitVec 32) : BitVec 16 := k.truncate 16

/-- The record's interval tag (R41). -/
def Published.tag (r : Published) : BitVec 16 := intervalTag r.number

end Sys2Proof.Machine
end

