-- ==== Sys2Proof/Machine/Flags.lean ====
section
/-! DEFINITION. The computed flags and checks of a frame: the CRC (R166), the status byte (R165) and the answer half
(R164), and the attention line (R158). -/

namespace Sys2Proof.Machine

/-- One bit of the CRC with polynomial x^16 + x^12 + x^5 + 1 (R166). -/
def crcStep (c : BitVec 16) (b : Bool) : BitVec 16 :=
  if c.msb != b then (c <<< 1) ^^^ 0x1021#16 else c <<< 1

/-- The CRC of R166: from all ones, most significant bit first, not inverted at the end. -/
def crc16 {w : Nat} (m : BitVec w) : BitVec 16 :=
  (List.range w).foldl (fun c k => crcStep c (m.getMsbD k)) 0xFFFF#16

/-- The request half that carries a request, with its CRC over bytes 0 to 11 (R166). -/
def Request.half (r : Request) : BitVec 112 := r.message ++ crc16 r.message

/-- The status byte of R165 and R166. -/
def statusByte (attn lock drop ferr collapsed : Bool) (plant : PlantState) : Byte :=
  f8 (flagAt 7 attn + flagAt 6 lock + flagAt 5 drop + flagAt 4 ferr + flagAt 3 collapsed + plant.code)

/-- The DROP bit a status byte shows. -/
def showsDrop (status : Byte) : Bool := status.getLsbD 5

/-- The FERR bit a status byte shows. -/
def showsFerr (status : Byte) : Bool := status.getLsbD 4

/-- Answer bytes 1 to 11: the NONE answer is all zero (R164). -/
def answerBytes : Option Answer → BitVec 88
  | none => 0
  | some a => a.kind ++ a.tag ++ f8 a.code.code ++ a.payload

/-- The answer half with its CRC over answer bytes 0 to 11 (R164). -/
def AnswerHalf.make (status : Byte) (a : Option Answer) : AnswerHalf :=
  { status := status, answer := a, crc := crc16 (status ++ answerBytes a) }

/-- The 14 bytes the answer half carries, in order (R166). -/
def AnswerHalf.bits (h : AnswerHalf) : BitVec 112 := h.status ++ answerBytes h.answer ++ h.crc

/-- A pending set whole, oldest first (R157). -/
def PendingSet.all (q : PendingSet) : List PendingEntry := q.entries ++ q.fresh

/-- The attention line of port p is asserted exactly when its pending set is not empty (R157, R158). -/
def State.attentionLine (s : State) (p : Port) : Bool := !(look s.router.sets p).all.isEmpty

end Sys2Proof.Machine
end

