-- ==== Sys2Proof/Machine/Ops.lean ====
section
/-! DEFINITION. The named updates of the state: every register has one home and these are the ways to it. -/

namespace Sys2Proof.Machine

/-- The entry of a station. -/
def State.station (s : State) (i : StationId) : Station := look s.stations i

/-- The state of a port. -/
def State.port (s : State) (p : Port) : PortState := look s.ports p

/-- One station entry changed. -/
def State.updStation (s : State) (i : StationId) (f : Station → Station) : State :=
  { s with stations := put s.stations i (f (s.station i)) }

/-- Every station entry changed. -/
def State.updStations (s : State) (f : StationId → Station → Station) : State :=
  { s with stations := tabulate fun i => f i (s.station i) }

/-- One port changed. -/
def State.updPort (s : State) (p : Port) (f : PortState → PortState) : State :=
  { s with ports := put s.ports p (f (s.port p)) }

/-- The Parameter Table replaced. -/
def State.setParams (s : State) (x : Params) : State := { s with params := x }

/-- The Envelope Engine's state replaced. -/
def State.setEngine (s : State) (x : Engine) : State := { s with engine := x }

/-- The published record replaced whole (R42). -/
def State.setPublished (s : State) (x : Published) : State := { s with published := x }

/-- The held-take list replaced. -/
def State.setHeldTakes (s : State) (x : List HeldTake) : State := { s with heldTakes := x }

/-- The storage record replaced. -/
def State.setStorage (s : State) (x : Storage) : State := { s with storage := x }

/-- The Ramp Monitor's state replaced. -/
def State.setRamp (s : State) (x : Ramp) : State := { s with ramp := x }

/-- The Statistics Unit's state replaced. -/
def State.setStats (s : State) (x : Stats) : State := { s with stats := x }

/-- The Attention Router's state replaced. -/
def State.setRouter (s : State) (x : Router) : State := { s with router := x }

/-- The mark of the FAULT-CLEAR just taken replaced (log entry 24). -/
def State.setLastClear (s : State) (x : Option StationId) : State := { s with lastClear := x }

/-- The beginning of an event: a FAULT-CLEAR taken before it is no longer the last event (log entry 24). -/
def State.nextEvent (s : State) : State := s.setLastClear none

/-- The n-th free choice among `n` candidates, and the state in which it is used up (log entry 6). -/
def State.choose (s : State) (n : Nat) : Nat × State :=
  (Config.freeOrder s.choices % n, { s with choices := s.choices + 1 })

/-! ### Events of the same instant (R142) -/

/-- The n-th non-empty list gives up its head: the head, and the lists without it. -/
def takeNth {α : Type} : Nat → List (List α) → Option (α × List (List α))
  | _, [] => none
  | n, [] :: ls => (takeNth n ls).map fun r => (r.1, [] :: r.2)
  | 0, (x :: l) :: ls => some (x, l :: ls)
  | n + 1, (x :: l) :: ls => (takeNth n ls).map fun r => (r.1, (x :: l) :: r.2)

/-- Several lists woven into one, each in its own order: every number picks, modulo the number of non-empty lists, the
list that gives its head next. -/
def weave {α : Type} : List Nat → List (List α) → List α
  | [], ls => ls.flatten
  | n :: ns, ls =>
    match takeNth (n % ls.countP fun l => !l.isEmpty) ls with
    | some (x, rest) => x :: weave ns rest
    | none => []

/-- A free order of the members of several lists, each list in its own order, and the state in which the choices it
takes are used up (log entry 6). -/
def State.chooseOrder {α : Type} (s : State) (ls : List (List α)) : List α × State :=
  let n := ls.flatten.length
  (weave ((List.range n).map fun k => Config.freeOrder (s.choices + k)) ls, { s with choices := s.choices + n })

/-- Parts of one event that happen at the same instant: each list of parts in its order, and the lists in any order
between them. The parts hand source events to the Statistics Unit, whose order matters only if one of them freezes the
unit (R142): then free choices decide. -/
def State.together {α : Type} (s : State) (act : State → α → State) (parts : List (List α)) : State :=
  let listed := parts.flatten.foldl act s
  if !s.stats.frozen && listed.stats.frozen then
    let (order, t) := s.chooseOrder parts
    order.foldl act t
  else listed

/-! ### Reads -/

/-- Whether the engine is HALTED (R3). -/
def State.halted (s : State) : Bool :=
  match s.engine.run with
  | .halted => true
  | .running | .inFlight _ => false

/-- Whether a run is in flight (R3). -/
def State.runInFlight (s : State) : Bool :=
  match s.engine.run with
  | .inFlight _ => true
  | .running | .halted => false

/-- The mode of a monitor, one for all stations (R104). -/
def Params.monMode (x : Params) : Monitor → MonMode
  | .window => x.monWindow
  | .overshoot => x.monOvershoot
  | .plausibility => x.monPlausibility
  | .interlock => x.monInterlock

/-- A count raised by one, stopping at its top (00_scope.md 4.2). -/
def saturate (top x : Nat) : Nat := min top (x + 1)

/-- A value clamped to [lo, hi] (00_scope.md 4.2). -/
def clamp (lo hi x : Int) : Int := if x < lo then lo else if hi < x then hi else x

/-- A step of an event on every station, in ascending port number (00_scope.md 4.4). -/
def State.forStations (s : State) (f : State → StationId → State) : State := stationIds.foldl f s

end Sys2Proof.Machine
end

