-- ==== Sys2Proof/Machine/Attention.lean ====
section
/-! DEFINITION. The Attention Router (chapter 9): firing and merging, end reports, acknowledgement. -/

namespace Sys2Proof.Machine

/-- Whether an entry is the one of a (kind, station) pair. -/
def PendingEntry.isFor (e : PendingEntry) (k : CauseKind) (i : StationId) : Bool := e.kind == k && e.inst == i

/-- A firing merged into the entry of its pair (R157): the count rises, stopping at 255; the flag may become set. -/
def PendingEntry.merge (k : CauseKind) (i : StationId) (locked : Bool) (e : PendingEntry) : PendingEntry :=
  if e.isFor k i then { e with count := saturate 255 e.count, locked := e.locked || locked } else e

/-- Whether entry `a` stands before entry `b` among those one event adds: ascending kind code, then station (R157). -/
def PendingEntry.before (a b : PendingEntry) : Bool :=
  a.kind.code.val < b.kind.code.val || (a.kind == b.kind && a.inst.val < b.inst.val)

/-- A new entry placed among those the event has added (R157). -/
def insertFresh (e : PendingEntry) : List PendingEntry → List PendingEntry
  | [] => [e]
  | x :: xs => if e.before x then e :: x :: xs else x :: insertFresh e xs

/-- A firing delivered to one pending set (R157). -/
def PendingSet.deliver (q : PendingSet) (k : CauseKind) (i : StationId) (r : Release) (locked : Bool) : PendingSet :=
  if q.all.any (·.isFor k i) then
    { entries := q.entries.map (PendingEntry.merge k i locked), fresh := q.fresh.map (PendingEntry.merge k i locked) }
  else
    { q with fresh := insertFresh { kind := k, inst := i, release := r, count := 1, locked := locked } q.fresh }

/-- Whether port p is a destination of a firing (R156). -/
def Route.reaches (r : Route) (k : CauseKind) (i : StationId) (p : Port) : Bool :=
  r.mask.getLsbD p.val || (k.isStation && r.ownPort && p == stationPort i)

/-- A firing of kind k for station i (0 for the other kinds), delivered to every destination port (R156). -/
def Router.fire (x : Router) (k : CauseKind) (i : StationId) (locked : Bool) : Router :=
  let r := look x.routes k.code
  { x with sets := tabulate fun p =>
      if r.reaches k i p then (look x.sets p).deliver k i r.release locked else look x.sets p }

/-- An end report (R159): the pair's entries with release CLEAR leave every pending set. -/
def Router.conditionEnded (x : Router) (k : CauseKind) (i : StationId) : Router :=
  let keep (e : PendingEntry) : Bool := !(e.isFor k i && e.release == .clear)
  { x with sets := tabulate fun p =>
      { entries := (look x.sets p).entries.filter keep, fresh := (look x.sets p).fresh.filter keep } }

/-- The end of an event: the entries it added take their places behind the older ones (R157). -/
def PendingSet.settle (q : PendingSet) : PendingSet := { entries := q.all, fresh := [] }

/-- The end of an event for every pending set. -/
def Router.settle (x : Router) : Router := { x with sets := tabulate fun p => (look x.sets p).settle }

/-- A firing that carries the capture-locked flag or not (R154). -/
def State.fireFlagged (s : State) (k : CauseKind) (i : StationId) (locked : Bool) : State :=
  s.setRouter (s.router.fire k i locked)

/-- A firing of a kind for a station. -/
def State.fire (s : State) (k : CauseKind) (i : StationId) : State := s.fireFlagged k i false

/-- The firing of a kind with a single source, numbered 0 (R154). -/
def State.firePlant (s : State) (k : CauseKind) : State := s.fireFlagged k 0 false

/-- A report that the condition of a kind has ended for a station (R159). -/
def State.conditionEnded (s : State) (k : CauseKind) (i : StationId) : State :=
  s.setRouter (s.router.conditionEnded k i)

/-- The end of the event being taken: its new pending entries are in place (R157). -/
def State.endEvent (s : State) : State := s.setRouter s.router.settle

/-- Fire a run-scoped cause while its condition holds, else report it ended (R134). -/
def State.fireWhile (s : State) (k : CauseKind) (holds : Bool) : State :=
  if holds then s.firePlant k else s.conditionEnded k 0

/-! ### ATTN-ACK and ATTN-READ -/

/-- Whether an ATTN-ACK naming a kind and an entry number (255 is ALL) matches an entry (R160). -/
def PendingEntry.matchesAck (e : PendingEntry) (kind inst : Byte) : Bool :=
  (kind == 255#8 || kind.toNat == e.kind.code.val) &&
    (!e.kind.isStation || inst == 255#8 || inst.toNat == e.inst.val)

/-- What an ATTN-ACK leaves of a list: every entry but the matching ones with release ACK (R160). -/
def acknowledged (kind inst : Byte) (es : List PendingEntry) : List PendingEntry :=
  es.filter fun e => !(e.matchesAck kind inst && e.release == .ack)

/-- The service of ATTN-ACK (R160). -/
def serveAttnAck (s : State) (p : Port) (kind inst : Byte) : State × Reply :=
  if (kind != 255#8 && 12 ≤ kind.toNat) || (inst != 255#8 && 10 ≤ inst.toNat) then (s, refuse .refusedRange)
  else
    let q := look s.router.sets p
    let q' : PendingSet := { entries := acknowledged kind inst q.entries, fresh := acknowledged kind inst q.fresh }
    (s.setRouter { s.router with sets := put s.router.sets p q' },
      { code := .ok
        payload := f8 (q.all.length - q'.all.length) ++ f8 q'.all.length ++ (0 : BitVec 48) })

/-- The three bytes of a pending entry in an ATTN-READ answer (R166). DEDUCED, the model's choice: a position with no
entry has 0 in the fields beside its clear present flag, to which R161 gives no value (log entry 30). -/
def entryBytes : Option PendingEntry → BitVec 24
  | none => 0
  | some e =>
    f8 (flagAt 7 true + flagAt 6 (e.release == .clear) + flagAt 5 e.locked + e.kind.code.val) ++ f8 e.inst.val ++
      f8 e.count

/-- The service of ATTN-READ (R161). -/
def serveAttnRead (s : State) (p : Port) : State × Reply :=
  let q := (look s.router.sets p).all
  (s, { code := .ok, payload := f8 q.length ++ entryBytes q[0]? ++ entryBytes q[1]? ++ (0 : BitVec 8) })

end Sys2Proof.Machine
end

