-- ==== Sys2Proof/Machine/Statistics.lean ====
section
/-! DEFINITION. The Statistics Unit (chapter 8): counters, accounting steps, overflow, freezing, filters, STAT-CTRL
and STAT-READ. -/

namespace Sys2Proof.Machine

/-! ### Counters (R138 to R143) -/

/-- The test of R139: magnitude at least the threshold, reversed by invert. -/
def Control.passes (c : Control) (mag : Nat) : Bool := (c.threshold.toNat ≤ mag) != c.invert

/-- Whether a station- or port-scoped event reaches the counter's pass test (R138). -/
def Control.sees (c : Control) (x : StatSource) (p : Port) : Bool :=
  c.enable && c.source == x && c.mask.getLsbD p.val

/-- Whether adding `n` takes the value past 2^40 − 1 (R143). -/
def Counter.wraps (c : Counter) (n : Nat) : Bool := 2 ^ 40 ≤ c.value.toNat + n

/-- The addition of R140 and R143: the low 40 bits are kept, a wrap sets the overflow flag. -/
def Counter.add (c : Counter) (n : Nat) : Counter :=
  { c with value := c.value + BitVec.ofNat 40 n, overflow := c.overflow || c.wraps n }

/-- What a passing event of magnitude `mag` adds (R140); `rising` says whether an EDGE counter sees an edge. -/
def CountMode.increment (m : CountMode) (mag : Nat) (rising : Bool) : Nat :=
  match m with
  | .occurrence => 1
  | .magnitude => mag
  | .edge => if rising then 1 else 0

/-- What a station- or port-scoped event adds to a counter; EDGE counts it as OCCURRENCE does (R140). -/
def Counter.eventIncrement (c : Counter) (x : StatSource) (mag : Nat) (p : Port) : Nat :=
  if c.control.sees x p && c.control.passes mag then c.control.mode.increment mag true else 0

/-- The run-scoped events of one run: each source that occurred, with its magnitude (R137). -/
abbrev RunEvents := List (StatSource × Nat)

/-- Whether the counter's source passed the counter's test in the run (R141). -/
def Counter.passedIn (c : Counter) (es : RunEvents) : Bool :=
  match es.lookup c.control.source with
  | some mag => c.control.passes mag
  | none => false

/-- What a run adds to a counter, EDGE judged against the flag as it stood before the step (R142). -/
def Counter.runIncrement (c : Counter) (es : RunEvents) : Nat :=
  match es.lookup c.control.source with
  | some mag =>
    if c.control.enable && c.control.passes mag then c.control.mode.increment mag (!c.edge) else 0
  | none => 0

/-- The edge flag after the publication of a run (R141). -/
def Counter.setEdge (c : Counter) (es : RunEvents) : Counter :=
  if c.control.enable && c.control.source.isRun then { c with edge := c.passedIn es } else c

/-- Whether an addition overflows a counter whose freeze-on-overflow is set (R143). -/
def Counter.freezesOn (c : Counter) (n : Nat) : Bool := c.wraps n && c.control.freezeOnOverflow

/-! ### Freezing (R145) -/

/-- The unit becomes frozen for a reason, firing STATS-FREEZE; a unit already frozen is left as it is (R145). -/
def State.statFreeze (s : State) (why : FreezeReason) : State :=
  if s.stats.frozen then s
  else (s.setStats { s.stats with frozen := true, reason := why }).firePlant .statsFreeze

/-- The unit becomes not frozen, and CLEAR-routed STATS-FREEZE entries are released (R145). -/
def State.statUnfreeze (s : State) : State :=
  if s.stats.frozen then
    (s.setStats { s.stats with frozen := false, reason := FreezeReason.empty }).conditionEnded .statsFreeze 0
  else s

/-! ### Accounting steps (R142) -/

/-- A station- or port-scoped event, a step of its own made against the freeze state it meets (R142). -/
def State.statEvent (s : State) (x : StatSource) (mag : Nat) (p : Port) : State :=
  if s.stats.frozen then s
  else
    let old := s.stats.counters
    let s' := s.setStats { s.stats with
      counters := tabulate fun n => (look old n).add ((look old n).eventIncrement x mag p) }
    if (List.finRange 8).any fun n => (look old n).freezesOn ((look old n).eventIncrement x mag p) then
      s'.statFreeze { manual := false, overflow := true, hard := false }
    else s'

/-- The top of a residency counter (R146). -/
def residencyTop : Nat := 4294967295

/-- The residency counters after a run of a plant state, collapsed or not (R146). NONE has no counter. -/
def residencyAfter (v : Vector Nat 7) (plant : PlantState) (collapsed : Bool) : Vector Nat 7 :=
  tabulate fun n =>
    if (n.val = plant.code && plant != .none) || (n.val = 6 && collapsed) then saturate residencyTop (look v n)
    else look v n

/-- The accounting step of one publication (R142): `es` the run's events, with its plant state and collapsed flag. -/
def State.statPublication (s : State) (es : RunEvents) (plant : PlantState) (collapsed : Bool) : State :=
  let st := s.stats
  let counted (c : Counter) : Counter := if st.frozen then c else c.add (c.runIncrement es)
  let s' := s.setStats { st with
    counters := tabulate fun n => (counted (look st.counters n)).setEdge es
    residency := if st.frozen then st.residency else residencyAfter st.residency plant collapsed
    runCounter := st.runCounter + 1 }
  let overflow := (List.finRange 8).any fun n =>
    (look st.counters n).freezesOn ((look st.counters n).runIncrement es)
  let hard := st.freezeOnHard && (es.lookup .rampHard).isSome
  if !st.frozen && (overflow || hard) then s'.statFreeze { manual := false, overflow := overflow, hard := hard }
  else s'

/-! ### Frame filters (R148) -/

/-- Whether a frame matches a filter: every masked bit of port, kind and tag equals the match (R148). -/
def Filter.passes (f : Filter) (p : Port) (kind tag : Byte) : Bool :=
  (BitVec.ofNat 4 p.val &&& f.portMask) == (f.portMatch &&& f.portMask) &&
  (kind &&& f.kindMask) == (f.kindMatch &&& f.kindMask) && (tag &&& f.tagMask) == (f.tagMatch &&& f.tagMask)

/-- The source event of a filter (R148). -/
def filterSource (n : Fin 2) : StatSource := if n = 0 then .filter0 else .filter1

/-- One filter's test of a frame (R148). -/
def State.filterOne (s : State) (p : Port) (kind tag : Byte) (n : Fin 2) : State :=
  if (look s.stats.filters n).passes p kind tag then s.statEvent (filterSource n) 0 p else s

/-- The filters' test of a frame at its arrival (R148). When both filters match, their events are taken in either
order (R142). -/
def State.filterFrame (s : State) (p : Port) (kind tag : Byte) : State :=
  s.together (fun t n => t.filterOne p kind tag n) [[0], [1]]

/-! ### STAT-CTRL (R149 to R151) -/

/-- The answer of an accepted action: the frozen state after it (R149). -/
def statReply (s : State) : State × Reply :=
  (s, { code := .ok, payload := f8 (flagAt 0 s.stats.frozen) ++ (0 : BitVec 56) })

/-- One counter changed. -/
def Stats.updCounter (st : Stats) (n : Fin 8) (f : Counter → Counter) : Stats :=
  { st with counters := put st.counters n (f (look st.counters n)) }

/-- CLEAR-ALL (R151): values, overflow flags and residency counters to 0, then the unit not frozen. -/
def State.statClearAll (s : State) : State :=
  (s.setStats { s.stats with
    counters := tabulate fun n => { look s.stats.counters n with value := 0, overflow := false }
    residency := Vector.replicate 7 0 }).statUnfreeze

/-- The control record CONFIGURE's bytes 4 to 11 name (R166, STAT-READ 8 to 15): none when the source code or the
mode code names nothing (R150). -/
def Control.ofBytes (x : BitVec 64) : Option Control :=
  let flags := x.extractLsb' 32 8
  match StatSource.ofCode (x.extractLsb' 56 8).toNat, CountMode.ofCode (flags.extractLsb' 0 2).toNat with
  | some src, some mode =>
    some { source := src, mask := (x.extractLsb' 40 16).truncate 12, mode := mode, threshold := x.extractLsb' 0 32,
           invert := flags.getLsbD 4, freezeOnOverflow := flags.getLsbD 5, enable := flags.getLsbD 6 }
  | _, _ => none

/-- A control record as STAT-READ 8 to 15 returns it (R166). -/
def Control.bytes (c : Control) : BitVec 64 :=
  f8 c.source.code ++ c.mask.zeroExtend 16 ++
    f8 (c.mode.code + flagAt 4 c.invert + flagAt 5 c.freezeOnOverflow + flagAt 6 c.enable) ++ c.threshold

/-- The filter record FILTER's bytes 4 to 8 name (R166, STAT-READ 24 and 25). -/
def Filter.ofBytes (x : BitVec 40) : Filter :=
  { portMatch := x.extractLsb' 36 4, portMask := x.extractLsb' 32 4, kindMatch := x.extractLsb' 24 8,
    kindMask := x.extractLsb' 16 8, tagMatch := x.extractLsb' 8 8, tagMask := x.extractLsb' 0 8 }

/-- A filter record as STAT-READ 24 and 25 return it (R166). -/
def Filter.bytes (f : Filter) : BitVec 40 :=
  f.portMatch ++ f.portMask ++ f.kindMatch ++ f.kindMask ++ f.tagMatch ++ f.tagMask

/-- The FREEZE-ON-HARD setting that byte 4 names: 1 enabled, 0 disabled, any other value open (R166, log entry 7). -/
def freezeOnHardSetting (x : Byte) : Bool :=
  if x = 0#8 then false else if x = 1#8 then true else Config.freezeOnHardOther x

/-- The service of STAT-CTRL (R149). -/
def serveStatCtrl (s : State) : StatAction → State × Reply
  | .freeze => statReply (s.statFreeze { manual := true, overflow := false, hard := false })
  | .unfreeze => statReply s.statUnfreeze
  | .clearAll => statReply s.statClearAll
  | .clearOvf named =>
    let cleared (n : Fin 8) : Counter :=
      if named.getLsbD n.val then { look s.stats.counters n with overflow := false } else look s.stats.counters n
    statReply (s.setStats { s.stats with counters := tabulate cleared })
  | .preset counter value =>
    match index? 8 counter.toNat with
    | some n =>
      (s.setStats (s.stats.updCounter n fun c => { c with value := value }),
        { code := .ok, payload := f8 (flagAt 0 s.stats.frozen) ++ value ++ (0 : BitVec 16) })
    | none => (s, refuse .refusedRange)
  | .configure counter record =>
    match index? 8 counter.toNat, Control.ofBytes record with
    | some n, some c => statReply (s.setStats (s.stats.updCounter n fun x => { x with control := c, edge := false }))
    | _, _ => (s, refuse .refusedRange)
  | .filter which record =>
    match index? 2 which.toNat with
    | some n => statReply (s.setStats { s.stats with filters := put s.stats.filters n (Filter.ofBytes record) })
    | none => (s, refuse .refusedRange)
  | .freezeOnHard x => statReply (s.setStats { s.stats with freezeOnHard := freezeOnHardSetting x })
  | .undefined _ => (s, refuse .refusedRange)

/-! ### STAT-READ (R152) -/

/-- The payload of a STAT-READ page, none above page 25 (R152, R166). -/
def Stats.page (st : Stats) (page : Nat) : Option (BitVec 64) :=
  if page < 8 then
    (index? 8 page).map fun n =>
      let c := look st.counters n
      c.value ++ f8 (flagAt 0 c.overflow + flagAt 1 c.control.enable) ++ (0 : BitVec 16)
  else if page < 16 then (index? 8 (page - 8)).map fun n => (look st.counters n).control.bytes
  else if page < 23 then (index? 7 (page - 16)).map fun n => f32 (look st.residency n) ++ (0 : BitVec 32)
  else if page = 23 then
    some (st.runCounter ++
      f8 (flagAt 0 st.frozen + flagAt 1 st.reason.manual + flagAt 2 st.reason.overflow + flagAt 3 st.reason.hard +
        flagAt 4 st.freezeOnHard) ++
      f8 (bitsOf (tabulate fun n : Fin 8 => (look st.counters n).overflow)) ++
      f8 (bitsOf (tabulate fun n : Fin 8 => (look st.counters n).edge)) ++ (0 : BitVec 8))
  else (index? 2 (page - 24)).map fun n => (look st.filters n).bytes ++ (0 : BitVec 24)

/-- The service of STAT-READ (R152). -/
def serveStatRead (s : State) (page : Byte) : State × Reply :=
  match s.stats.page page.toNat with
  | some x => (s, { code := .ok, payload := x })
  | none => (s, refuse .refusedRange)

end Sys2Proof.Machine
end

