-- ==== Sys2Proof/Machine/Grant.lean ====
section
/-! DEFINITION. The Grant Unit's own state (chapter 4): raise-ready, the headroom pool and the interlock record. -/

namespace Sys2Proof.Machine

/-- A station is frozen while the scope of its live group or the PLANT scope is frozen (R126). -/
def State.raiseFrozen (s : State) (i : StationId) : Bool :=
  (look s.ramp.scopes (groupScope (s.station i).group)).frozen || (look s.ramp.scopes plantScope).frozen

/-- The offer of a record for a station, limited to its rating as it stands (R75). -/
def State.liveOffer (s : State) (r : Published) (i : StationId) : Nat := min (look r.offers i) (s.station i).rating

/-- A station's reserved raise, 0 while its interlock record is absent (R48, R71). -/
def Station.reserved (e : Station) : Nat :=
  match e.interlock with
  | some r => r.reserved
  | none => 0

/-- The headroom pool (R72): not stored, may be negative. -/
def State.pool (s : State) : Int :=
  (s.published.allowance : Int) -
    (sumStations fun i => if look s.published.mask i then (s.station i).applied + (s.station i).reserved else 0 : Nat)

/-! ### Raise-ready (R88, R89) -/

/-- The condition of R88. -/
def State.readyCondition (s : State) (i : StationId) : Bool :=
  let e := s.station i
  e.state == .online && look s.published.mask i && e.interlock.isNone && !s.raiseFrozen i &&
    decide (0 < s.params.raiseStep) && decide (e.applied + s.params.raiseStep ≤ s.liveOffer s.published i)

/-- The evaluation of a station's raise-ready flag, with the firing or the end report a change makes (R89). -/
def State.evalReady (s : State) (i : StationId) : State :=
  if s.readyCondition i then
    if (s.station i).ready then s else (s.updStation i fun e => { e with ready := true }).fire .raiseReady i
  else
    if (s.station i).ready then (s.updStation i fun e => { e with ready := false }).conditionEnded .raiseReady i
    else s

/-- The evaluation for all stations (R88). -/
def State.evalReadyAll (s : State) : State := s.forStations State.evalReady

/-! ### The end of an interlock (R73) -/

/-- Steps 1 to 3 of R73: the worst case for the applied ceiling, the record discarded, INTERLOCK-END counted. -/
def State.endRecord (s : State) (i : StationId) : State :=
  match (s.station i).interlock with
  | none => s
  | some r =>
    let applied := (s.station i).applied
    (s.updStation i fun e => { e with applied := max applied r.granted, interlock := none }).statEvent
      .interlockEnd (r.granted - applied) (stationPort i)

/-- The cancellation of a port's interlock, if one is open: R73 with no monitor event (R85). -/
def State.cancelInterlock (s : State) (i : StationId) : State :=
  if (s.station i).interlock.isSome then (s.endRecord i).evalReady i else s

end Sys2Proof.Machine
end

