-- ==== Sys2Proof/Machine/Stations.lean ====
section
/-! DEFINITION. The Station Table's change of state with its notices (R51, R52), and the requests JOIN, LEAVE, PARK,
UNPARK and the station part of PORT-RESET. -/

namespace Sys2Proof.Machine

/-- A change of an entry's state with its notices (R52): leaving ONLINE cancels an open interlock (R85), leaving
STALE clears the stale duration and releases STN-STALE, and raise-ready is re-evaluated (R88). -/
def State.setEntryState (s : State) (i : StationId) (new : StationState) : State :=
  let old := (s.station i).state
  if old = new then s
  else
    let s := s.updStation i fun e => { e with state := new }
    let s := if old = .online then s.cancelInterlock i else s
    let s := if old = .stale then
      (s.updStation i fun e => { e with staleDuration := 0 }).conditionEnded .stnStale i else s
    s.evalReady i

/-- The state an entry that enters JOINING takes: FAULTED at once while its holding set is not empty (R51). -/
def Station.joinState (e : Station) : StationState := if e.holding = 0 then .joining else .faulted

/-- The entry enters JOINING, or FAULTED by R51. -/
def State.enterJoining (s : State) (i : StationId) : State := s.setEntryState i (s.station i).joinState

/-- The payload of an answer that carries an entry's state alone (R166). -/
def stateReply (s : State) (i : StationId) : State × Reply :=
  (s, { code := .ok, payload := f8 (s.station i).state.code ++ (0 : BitVec 56) })

/-- The service of JOIN on a station port (R53). -/
def serveJoin (s : State) (i : StationId) : State × Reply :=
  let answer (t : State) : State × Reply :=
    (t, { code := .ok
          payload := f8 (t.station i).state.code ++ f16 (t.station i).rating ++ (0 : BitVec 40) })
  if (s.station i).state = .absent then
    if (s.station i).rating = 0 then (s, refuse .refusedState)
    else answer ((s.updStation i fun e => { e with age := 0 }).enterJoining i)
  else answer s

/-- The service of LEAVE on a station port (R54). -/
def serveLeave (s : State) (i : StationId) : State × Reply :=
  if (s.station i).state = .absent then (s, { code := .ok, payload := 0 })
  else
    ((s.setEntryState i .absent).updStation i fun e =>
      { e with meas := 0, avail := 0, applied := 0, age := 0, park := none, overshootRun := 0, staleDuration := 0 },
      { code := .ok, payload := 0 })

/-- The service of PARK for a station (R63). -/
def servePark (s : State) (station : Byte) (ceiling : BitVec 16) : State × Reply :=
  match index? 10 station.toNat with
  | none => (s, refuse .refusedRange)
  | some i =>
    if (s.station i).state = .absent then (s, refuse .refusedState)
    else
      let rating := (s.station i).rating
      let stored := min ceiling.toNat rating
      let s := (s.setEntryState i .parked).updStation i fun e => { e with park := some stored }
      (s, { code := if rating < ceiling.toNat then .okClamped else .ok
            payload := f8 (s.station i).state.code ++ f16 stored ++ (0 : BitVec 40) })

/-- The service of UNPARK for a station (R64). -/
def serveUnpark (s : State) (station : Byte) : State × Reply :=
  match index? 10 station.toNat with
  | none => (s, refuse .refusedRange)
  | some i =>
    if (s.station i).state = .parked then
      stateReply ((s.updStation i fun e => { e with park := none }).enterJoining i) i
    else (s, refuse .refusedState)

/-- What PORT-RESET does to the entry of a station port and to its interlock (R68, R86). The entry leaves ONLINE
first, so raise-ready is found clear (R85, R86). -/
def State.resetEntry (s : State) (i : StationId) : State :=
  if (s.station i).state = .absent then s
  else
    ((s.enterJoining i).cancelInterlock i).updStation i fun e => { e with park := none, age := 0 }

end Sys2Proof.Machine
end

