-- ==== Sys2Proof/Machine/Monitors.lean ====
section
/-! DEFINITION. The Monitor Array (chapter 6): the response to one event, the judgement of one report, the reports
of the stations (R55 to R57), the clearing of faults, and the end of an interlock with a monitor event (R73, R74). -/

namespace Sys2Proof.Machine

/-- Whether a status is set. -/
def Station.status (e : Station) (ev : MonEvent) : Bool := e.statuses.getLsbD ev.code

/-- Whether a monitor is in the holding set. -/
def Station.holds (e : Station) (m : Monitor) : Bool := e.holding.getLsbD m.code

/-- A status set (R110). -/
def Station.latch (e : Station) (ev : MonEvent) : Station :=
  { e with statuses := e.statuses ||| BitVec.ofNat 8 (2 ^ ev.code) }

/-- A monitor joined to the holding set (R111). -/
def Station.join (e : Station) (m : Monitor) : Station :=
  { e with holding := e.holding ||| BitVec.ofNat 4 (2 ^ m.code) }

/-- A monitor gone from the holding set (R114). -/
def Station.letGo (e : Station) (m : Monitor) : Station :=
  { e with holding := e.holding &&& ~~~ BitVec.ofNat 4 (2 ^ m.code) }

/-- The status of an event set by a monitor that is not OFF; STN-MONITOR fires when it was clear (R110, R112). -/
def State.latchStatus (s : State) (i : StationId) (ev : MonEvent) : State :=
  if s.params.monMode ev.monitor = .off then s
  else
    let fresh := !(s.station i).status ev
    let s := s.updStation i fun e => e.latch ev
    if fresh then s.fire .stnMonitor i else s

/-- Whether a monitor of a mode joins the holding set at its event (R111). -/
def MonMode.joins : MonMode → Bool
  | .latched | .cycle => true
  | .off | .warn => false

/-- The states a non-empty holding set turns into FAULTED (R51). -/
def StationState.canFault : StationState → Bool
  | .joining | .online | .stale => true
  | .absent | .faulted | .parked => false

/-- An entry whose holding set has just become non-empty: FAULTED in JOINING, ONLINE and STALE, with FAULT-ENTRY
counted (R51, R111). -/
def State.faultEntry (s : State) (i : StationId) : State :=
  if (s.station i).state.canFault then
    (s.setEntryState i .faulted).statEvent .faultEntry 0 (stationPort i)
  else s

/-- The response to an event that does not come from judging a report (R109 to R111). -/
def State.monitorEvent (s : State) (i : StationId) (ev : MonEvent) : State :=
  let s := s.latchStatus i ev
  if (s.params.monMode ev.monitor).joins then
    let wasEmpty := (s.station i).holding = 0
    let s := s.updStation i fun e => e.join ev.monitor
    if wasEmpty then s.faultEntry i else s
  else s

/-- Steps 4 and 5 of R73 at an interlock's end: the monitor's response and raise-ready. -/
def State.respondEnd (s : State) (i : StationId) (ev : MonEvent) : State := (s.monitorEvent i ev).evalReady i

/-- The end of an interlock without a matching CEIL-APPLY, with the monitor event its cause calls for (R73). -/
def State.breakInterlock (s : State) (i : StationId) (ev : MonEvent) : State :=
  if (s.station i).interlock.isSome then (s.endRecord i).respondEnd i ev else s

/-- What the taking of a request does to an open interlock of its station port (R74): CEIL-APPLY leaves it, every
kind but LEAVE ends it with INTERLOCK-ERR. LEAVE's cancellation is part of the entry's exit from ONLINE, so that
raise-ready is found not ready (R85, log entry 12). -/
def State.endAtTaking (s : State) (i : StationId) (b : Body) : State :=
  match b with
  | .ceilApply _ => s
  | .leave => s
  | _ => s.breakInterlock i .interlockErr

/-! ### Judging one report (R105, R106, R108, R114) -/

/-- What the judgement of an accepted report is made on: the entry before the report (state and overshoot run
count), and the report as stored with the avail as sent (R57). -/
structure ReportView where
  before : StationState
  meas : Nat
  avail : Nat
  sentAvail : Nat
  deriving DecidableEq, Repr

/-- Whether a report fails the plausibility test (R106). -/
def implausible (s : State) (i : StationId) (r : ReportView) : Bool :=
  (s.station i).rating < r.sentAvail || r.avail + s.params.plausTol < r.meas

/-- Whether a report stands above the applied ceiling by more than OVS_TOL (R105). -/
def aboveCeiling (s : State) (i : StationId) (r : ReportView) : Bool :=
  (s.station i).applied + s.params.ovsTol < r.meas

/-- The overshoot run count after a report (R105): compared only in ONLINE and FAULTED when the report did not
change the state. -/
def overshootCount (s : State) (i : StationId) (r : ReportView) : Nat :=
  match r.before with
  | .online | .faulted => if aboveCeiling s i r then saturate 15 (s.station i).overshootRun else 0
  | .absent | .joining | .stale | .parked => 0

/-- Whether a report is free of a monitor's condition (R114). -/
def cleanFor (s : State) (i : StationId) (r : ReportView) : Monitor → Bool
  | .window | .interlock => true
  | .overshoot => !aboveCeiling s i r
  | .plausibility => !implausible s i r

/-- The four monitors in the order of their codes. -/
def allMonitors : List Monitor := [.window, .overshoot, .plausibility, .interlock]

/-- A CYCLE monitor leaves the holding set at a clean report (R114). -/
def Station.exitOne (mode : Monitor → MonMode) (clean : Monitor → Bool) (e : Station) (m : Monitor) : Station :=
  if mode m = .cycle && clean m then e.letGo m else e

/-- The holding set less the monitors that leave at a report (R108, step 3). -/
def Station.exits (e : Station) (mode : Monitor → MonMode) (clean : Monitor → Bool) : Station :=
  allMonitors.foldl (Station.exitOne mode clean) e

/-- The response to an event of the judgement, without the state change: status, firing and joining (R108, step 4). -/
def State.judgeEvent (s : State) (i : StationId) (happened : Bool) (ev : MonEvent) : State :=
  if happened then
    let s := s.latchStatus i ev
    if (s.params.monMode ev.monitor).joins then s.updStation i fun e => e.join ev.monitor else s
  else s

/-- The judgement of an accepted report as one step, with the one state change it asks for (R108, R51). -/
def State.judgeReport (s : State) (i : StationId) (r : ReportView) : State :=
  let bad := implausible s i r
  let count := overshootCount s i r
  let rising := decide (0 < count) && decide (s.params.ovsCount ≤ count)
  let clean := cleanFor s i r
  let wasEmpty := (s.station i).holding = 0
  let s := s.updStation i fun e => { e.exits s.params.monMode clean with overshootRun := count }
  let s := s.judgeEvent i bad .implausible
  let s := s.judgeEvent i rising .overshoot
  if (s.station i).holding = 0 then
    if (s.station i).state = .faulted && !decide wasEmpty then s.setEntryState i .online else s
  else if wasEmpty then s.faultEntry i
  else s

/-! ### TELEMETRY (R55 to R57) -/

/-- The answer to a report (R55, R56): state, age and stored avail. -/
def reportReply (s : State) (i : StationId) (code : AnswerCode) : State × Reply :=
  let e := s.station i
  (s, { code := code, payload := f8 e.state.code ++ f8 e.age ++ f16 e.avail ++ (0 : BitVec 32) })

/-- The state after an accepted report, before its judgement (R56): JOINING and STALE become ONLINE. -/
def StationState.reported : StationState → StationState
  | .joining | .stale => .online
  | .online => .online
  | .faulted => .faulted
  | .parked => .parked
  | .absent => .absent

/-- The early test (R55, R95). -/
def isEarly (x : Params) (age : Nat) : Bool := decide (0 < x.telWmin) && decide (age < x.telWmin)

/-- The service of TELEMETRY (R55 to R57). -/
def serveTelemetry (s : State) (i : StationId) (meas avail : BitVec 16) : State × Reply :=
  let before := (s.station i).state
  if before = .absent then (s, refuse .refusedState)
  else if isEarly s.params (s.station i).age then reportReply (s.monitorEvent i .early) i .okIgnored
  else
    let stored := min avail.toNat (s.station i).rating
    let s := s.updStation i fun e => { e with age := 0, meas := meas.toNat, avail := stored }
    let s := s.setEntryState i before.reported
    let s := s.judgeReport i
      { before := before, meas := meas.toNat, avail := stored, sentAvail := avail.toNat }
    reportReply s i (if stored < avail.toNat then .okClamped else .ok)

/-! ### FAULT-CLEAR of a station (R116) -/

/-- The service of FAULT-CLEAR for a station (R116), marked for a run start at the same instant (R117, log entry
24). -/
def serveFaultClear (s : State) (i : StationId) : State × Reply :=
  let e := s.station i
  let anything := e.statuses != 0 || e.holding != 0
  let s := (s.updStation i fun e => { e with statuses := 0, holding := 0, overshootRun := 0 }).setLastClear (some i)
  let s := if e.state = .faulted then s.setEntryState i .joining else s
  let s := if anything then s.conditionEnded .stnMonitor i else s
  stateReply s i

end Sys2Proof.Machine
end

