-- ==== Sys2Proof/Machine/Takes.lean ====
section
/-! DEFINITION. Ceiling takes and confirmations (R75 to R84, R86, R87): the Grant Unit's answers. -/

namespace Sys2Proof.Machine

/-- The fault cap of R78: the smaller of the applied ceiling and floor(rating × FAULT_CAP / 1000). -/
def faultCapOf (x : Params) (e : Station) : Nat := min e.applied (e.rating * x.faultCap / 1000)

/-- The ceiling of a FIXED answer (R76, R78). -/
def fixedCeiling (x : Params) (e : Station) : Nat :=
  match e.state with
  | .faulted => faultCapOf x e
  | .parked => e.park.getD 0
  | .absent | .joining | .online | .stale => e.applied

/-- The payload of a CEIL-TAKE answer (R75, R166). -/
def takePayload (state : StationState) (ceiling offer : Nat) (tag : BitVec 16) : BitVec 64 :=
  f8 state.code ++ f16 ceiling ++ f16 offer ++ tag ++ (0 : BitVec 8)

/-- A FIXED answer from a record (R76, R78). Its offer field is limited to the live rating for every state of the
entry, which R75 and R78 leave open for an entry that is still PARKED (log entry 25). -/
def fixedReply (s : State) (r : Published) (i : StationId) : Reply :=
  { code := .fixed
    payload := takePayload (s.station i).state (fixedCeiling s.params (s.station i)) (s.liveOffer r i) r.tag }

/-- What a take from the record grants (R79, R80): the code and the granted ceiling. -/
def grantOf (s : State) (i : StationId) : AnswerCode × Nat :=
  let applied := (s.station i).applied
  let offer := s.liveOffer s.published i
  if offer ≤ applied then (.ok, offer)
  else if s.raiseFrozen i then (.partialFrozen, applied)
  else
    let granted := applied + min (offer - applied) s.pool.toNat
    (if granted = offer then .ok else .partialPool, granted)

/-- The source event of a take from the record: RAISE-FULL, RAISE-PARTIAL, or none for a take that holds or lowers
the ceiling (R79, R80). -/
def State.raiseEvent (s : State) (i : StationId) (code : AnswerCode) (applied granted offer : Nat) : State :=
  if offer ≤ applied then s
  else if code = .ok then s.statEvent .raiseFull (granted - applied) (stationPort i)
  else s.statEvent .raisePartial (offer - granted) (stationPort i)

/-- The answer to a take from the published record for an ONLINE station of its mask: an interlock opens (R79, R80). -/
def takeFromRecord (s : State) (i : StationId) : State × Reply :=
  let applied := (s.station i).applied
  let offer := s.liveOffer s.published i
  let g := grantOf s i
  let record : Interlock :=
    { granted := g.2, reserved := g.2 - applied, takeTag := s.published.tag, publications := 0 }
  let t := (s.updStation i fun e => { e with interlock := some record }).raiseEvent i g.1 applied g.2 offer
  (t.evalReady i, { code := g.1, payload := takePayload (s.station i).state g.2 offer s.published.tag })

/-- The answer to a take, at once or held (R75 to R80). -/
def answerTake (s : State) (i : StationId) : State × Reply :=
  if (s.station i).state = .absent then (s, refuse .refusedState)
  else if s.halted then (s, fixedReply s Published.cleared i)
  else if (s.station i).state = .online && look s.published.mask i then takeFromRecord s i
  else (s.evalReady i, fixedReply s s.published i)

/-- The service of CEIL-TAKE (R75, R77): held while a run is in flight, else answered. -/
def serveCeilTake (s : State) (i : StationId) (tag : Byte) : State × Option Reply :=
  if s.runInFlight then (s.setHeldTakes (s.heldTakes ++ [{ station := i, tag := tag }]), none)
  else
    let (t, r) := answerTake s i
    (t, some r)

/-! ### CEIL-APPLY (R81 to R83) -/

/-- The payload of a CEIL-APPLY answer (R166). -/
def applyPayload (applied granted : Nat) : BitVec 64 := f16 applied ++ f16 granted ++ (0 : BitVec 32)

/-- The parts of a refused CEIL-APPLY of an entry that is not ABSENT (R83): its source event, and the monitor's
response. -/
inductive UnpairedPart where
  | counted | judged
  deriving DecidableEq, Repr

/-- One part of a refused CEIL-APPLY (R83). -/
def State.unpairedPart (s : State) (i : StationId) : UnpairedPart → State
  | .counted => s.statEvent .unpairedApply 0 (stationPort i)
  | .judged => s.monitorEvent i .unpaired

/-- What a refused CEIL-APPLY does (R83). UNPAIRED-APPLY and the FAULT-ENTRY that the UNPAIRED event can cause are taken
in either order (R142, log entry 27). -/
def State.unpaired (s : State) (i : StationId) : State :=
  s.together (fun t x => t.unpairedPart i x)
    (if (s.station i).state = .online && !s.halted then [[.counted], [.judged]] else [[.counted]])

/-- The service of CEIL-APPLY (R81, R82, R83). -/
def serveCeilApply (s : State) (i : StationId) (echo : BitVec 16) : State × Reply :=
  let e := s.station i
  match e.interlock with
  | some r =>
    if echo.toNat ≤ r.granted then
      ((s.updStation i fun e => { e with applied := echo.toNat, interlock := none }).evalReady i,
        { code := .ok, payload := applyPayload echo.toNat r.granted })
    else
      let stored := min echo.toNat e.rating
      (((s.updStation i fun e => { e with applied := stored, interlock := none }).monitorEvent i .echoHigh).evalReady i,
        { code := .okClamped, payload := applyPayload stored r.granted })
  | none =>
    if e.state = .absent then (s, refuse .refusedState)
    else
      ((s.unpaired i).evalReady i, { code := .refusedUnpaired, payload := applyPayload e.applied 0 })

/-! ### Answers and handlers (R169) -/

/-- An answer joins the back of a port's reply queue (R169). -/
def State.pushAnswer (s : State) (p : Port) (a : Answer) : State :=
  s.updPort p fun x => { x with replies := x.replies ++ [a] }

/-- A held take is answered: the answer joins the reply queue and the handler returns to IDLE (R169). -/
def State.releaseHeld (s : State) (p : Port) (a : Answer) : State :=
  s.updPort p fun x => { x with replies := x.replies ++ [a], handler := .idle }

/-- One held ceiling take answered (R80, R87). -/
def State.answerHeldTake (s : State) (h : HeldTake) : State :=
  let (t, r) := answerTake s h.station
  t.releaseHeld (stationPort h.station)
    { kind := Body.ceilTake.kind, tag := h.tag, code := r.code, payload := r.payload }

/-- The held takes answered in the order of the list, which is left empty (R80, R87). -/
def State.answerHeldTakes (s : State) : State :=
  let held := s.heldTakes
  held.foldl State.answerHeldTake (s.setHeldTakes [])

/-! ### The take deadline (R84) -/

/-- One more publication with the record open (R84). -/
def Station.countPublication (e : Station) : Station :=
  { e with interlock := e.interlock.map fun r => { r with publications := r.publications + 1 } }

/-- Whether a record has reached TAKE_DEADLINE (R84). -/
def State.atDeadline (s : State) (i : StationId) : Bool :=
  match (s.station i).interlock with
  | some r => s.params.takeDeadline ≤ r.publications
  | none => false

/-- The parts of an interlock's end at its deadline (R73): steps 1 to 3, then steps 4 and 5. -/
inductive DeadlinePart where
  | ends | responds
  deriving DecidableEq, Repr

/-- One part of the end of station i's interlock at its deadline (R73, R84). -/
def State.deadlinePart (s : State) (x : StationId × DeadlinePart) : State :=
  match x.2 with
  | .ends => s.endRecord x.1
  | .responds => s.respondEnd x.1 .takeTimeout

/-- The counting and the deadline of one publication (R84). R73 orders the steps of each end; the ends of different
stations need no order between them (R50, R142, log entry 15). -/
def State.takeDeadlines (s : State) : State :=
  let counted := s.updStations fun _ e => e.countPublication
  counted.together State.deadlinePart
    ((stationIds.filter counted.atDeadline).map fun i => [(i, .ends), (i, .responds)])

/-- The Grant Unit's actions after a publication, in order: deadlines, held takes, raise-ready (R84, R80, R88). -/
def State.grantPublication (s : State) : State := s.takeDeadlines.answerHeldTakes.evalReadyAll

/-- The Grant Unit's actions at an accepted ENG-HALT (R87). The ends of the interlocks need no order between them
(R50, R142, log entry 15). -/
def State.grantHalt (s : State) : State :=
  (s.together State.cancelInterlock (stationIds.map fun i => [i])).answerHeldTakes.evalReadyAll

/-- What PORT-RESET discards: the port's held take (R86). -/
def State.dropHeldTake (s : State) (i : StationId) : State :=
  s.setHeldTakes (s.heldTakes.filter fun h => h.station != i)

end Sys2Proof.Machine
end

