-- ==== Sys2Proof/Machine/StorageUnit.lean ====
section
/-! DEFINITION. The Storage Record (chapter 5): its requests, its ageing, its dispatch takes and its reset. -/

namespace Sys2Proof.Machine

/-- The record leaves STALE, if it was STALE: CLEAR-routed STORE-STALE entries are released (R92). -/
def State.leaveStorageStale (s : State) (old : StorageState) : State :=
  if old = .stale then s.conditionEnded .storeStale 0 else s

/-- The payload of an answer that carries the record's state alone. -/
def storageStateReply (s : State) : State × Reply :=
  (s, { code := .ok, payload := f8 s.storage.state.code ++ (0 : BitVec 56) })

/-- The service of JOIN on the storage port (R93). -/
def serveStorageJoin (s : State) : State × Reply :=
  if s.storage.state = .absent then
    storageStateReply (s.setStorage { s.storage with state := .joining, age := 0 })
  else storageStateReply s

/-- The service of LEAVE on the storage port (R94). -/
def serveStorageLeave (s : State) : State × Reply :=
  if s.storage.state = .absent then (s, { code := .ok, payload := 0 })
  else
    ((s.setStorage { s.storage with state := .absent, meas := 0, age := 0 }).leaveStorageStale s.storage.state,
      { code := .ok, payload := 0 })

/-- The answer to a battery report (R95, R96): state, age, stored meas and stored SOC. -/
def storTelReply (s : State) (code : AnswerCode) : State × Reply :=
  (s, { code := code
        payload := f8 s.storage.state.code ++ f8 s.storage.age ++ s32 s.storage.meas ++ f16 s.storage.soc })

/-- The service of STOR-TEL (R95, R96). -/
def serveStorTel (s : State) (meas : BitVec 32) (soc bdis bchg : BitVec 16) : State × Reply :=
  if s.storage.state = .absent then (s, refuse .refusedState)
  else if isEarly s.params s.storage.age then storTelReply s .okIgnored
  else
    let meas' := clamp (-65535) 65535 meas.toInt
    let soc' := min soc.toNat 1000
    let t := (s.setStorage { s.storage with
      state := .online, meas := meas', soc := soc', bdis := bdis.toNat, bchg := bchg.toNat,
      age := 0 }).leaveStorageStale s.storage.state
    storTelReply t (if meas' = meas.toInt && soc' = soc.toNat then .ok else .okClamped)

/-! ### Dispatch takes (R98, R99) -/

/-- S in SHORT, E in EXCESS, else 0 (R166, DISP-TAKE). -/
def shortfallOrExcess (r : Published) : Nat :=
  match r.plant with
  | .short => r.shortfall
  | .excess => r.excess
  | .free | .absorb | .curtail | .support | .none => 0

/-- The payload of a DISP-TAKE answer (R98, R166). -/
def dispatchPayload (r : Published) (live : StorageState) (b : Int) : BitVec 64 :=
  r.tag ++ f8 (r.plant.code + flagAt 3 r.collapsed + 16 * live.code + flagAt 7 (decide (b < 0))) ++ f16 b.natAbs ++
    f24 (shortfallOrExcess r)

/-- The answer to a dispatch take (R98): from the published record, or from the cleared one while HALTED. -/
def answerDispatch (s : State) : Reply :=
  if s.storage.state = .absent then refuse .refusedState
  else
    let r := if s.halted then Published.cleared else s.published
    if r.storageOnline then { code := .ok, payload := dispatchPayload r s.storage.state r.b }
    else { code := .fixed, payload := dispatchPayload r s.storage.state 0 }

/-- The service of DISP-TAKE (R98, R99): held while a run is in flight. -/
def serveDispTake (s : State) (tag : Byte) : State × Option Reply :=
  if s.runInFlight then (s.setStorage { s.storage with held := some tag }, none)
  else (s, some (answerDispatch s))

/-- A held dispatch take answered, if there is one (R99). -/
def State.answerHeldDispatch (s : State) : State :=
  match s.storage.held with
  | none => s
  | some tag =>
    let r := answerDispatch s
    (s.setStorage { s.storage with held := none }).releaseHeld storagePort
      { kind := Body.dispTake.kind, tag := tag, code := r.code, payload := r.payload }

/-! ### Ageing and reset (R97, R100) -/

/-- The ageing of the record at a run start (R97). -/
def State.ageStorage (s : State) : State :=
  if s.storage.state = .absent then s
  else
    let age := saturate 255 s.storage.age
    if s.storage.state = .online && decide (s.params.telWmax < age) then
      (s.setStorage { s.storage with age := age, state := .stale }).firePlant .storeStale
    else s.setStorage { s.storage with age := age }

/-- PORT-RESET on port 10 (R100). -/
def State.resetStorage (s : State) : State :=
  let s := s.setStorage { s.storage with held := none }
  if s.storage.state = .absent then s
  else (s.setStorage { s.storage with state := .joining, age := 0 }).leaveStorageStale s.storage.state

/-! ### Effective limits (R28) -/

/-- The effective limits of R28: Bdis_eff and Bchg_eff. -/
def effectiveLimits (state : StorageState) (soc bdis bchg socMin socMax : Nat) : Nat × Nat :=
  if state = .online then (if soc ≤ socMin then 0 else bdis, if socMax ≤ soc then 0 else bchg) else (0, 0)

/-! ### Reading the record (R101) -/

/-- A page of the storage record, none where the page is not defined (R101, R166). -/
def storagePage (s : State) (page : Nat) : Option (BitVec 64) :=
  let x := s.storage
  match page with
  | 0 => some (f8 (x.state.code + flagAt 7 (decide (x.meas < 0))) ++ f8 x.age ++ f16 x.meas.natAbs ++ f16 x.bdis ++
      f16 x.bchg)
  | 1 =>
    let eff := effectiveLimits x.state x.soc x.bdis x.bchg s.params.socMin s.params.socMax
    some (f16 x.soc ++ f16 eff.1 ++ f16 eff.2 ++ f8 (flagAt 0 x.held.isSome) ++ (0 : BitVec 8))
  | _ => none

end Sys2Proof.Machine
end

