-- ==== Sys2Proof/Machine/Envelope.lean ====
section
/-! DEFINITION. The Envelope Engine's stages of a run (chapter 1): sample, history, extremum queues, envelope, and the
requests METER and HIST-READ. -/

namespace Sys2Proof.Machine

/-! ### Stage 1: the sample (R13 to R15) -/

/-- The sample of a run with its source, clamped flag and METER-FALLBACK mark. -/
structure Sample where
  value : Nat
  source : SampleSource
  clamped : Bool
  fallback : Bool
  deriving DecidableEq, Repr

/-- The stations of a snapshot that are not ABSENT add their meas (R14). -/
def stationsMeas (stations : Vector StationSnap 10) : Nat :=
  sumStations fun i => if (look stations i).state = .absent then 0 else (look stations i).meas

/-- The summed value (R14): stations, plus the signed battery meas unless the battery is ABSENT. -/
def summedValue (run : RunInputs) : Int :=
  (stationsMeas run.stations : Int) + (if run.storage.state = .absent then 0 else run.storage.meas)

/-- The metered value a run uses: SAMPLE_SOURCE METERED and a sample with the run's tag (R13). -/
def meteredValue (run : RunInputs) : Option Nat :=
  match run.params.sampleSource, run.meter with
  | .metered, some m => if m.tag = intervalTag run.number then some m.value else none
  | .metered, none => none
  | .summed, _ => none

/-- The sample before the clamp, with its source (R13). -/
def rawSample (run : RunInputs) : Int × SampleSource :=
  match meteredValue run with
  | some v => (v, .metered)
  | none => (summedValue run, .summed)

/-- Stage 1 (R13, R15). -/
def sampleOf (run : RunInputs) : Sample :=
  let raw := rawSample run
  let value := clamp 0 run.params.plantRating raw.1
  { value := value.toNat, source := raw.2, clamped := value != raw.1
    fallback := run.params.sampleSource == .metered && run.meter.isNone }

/-! ### Stage 3: history and extremum queues (R16, R19) -/

/-- The length of the history ring (R16). -/
def historyLength : Nat := 600

/-- The ring with a new newest entry; a full ring loses its oldest (R16). -/
def pushHistory (h : List HistEntry) (e : HistEntry) : List HistEntry := (e :: h).take historyLength

/-- The age of an entry against run k, modulo 2^32 (R18). -/
def entryAge (k : BitVec 32) (e : QueueEntry) : Nat := (k - e.number).toNat

/-- R19 for a queue whose back entries are removed while `dominated`: expiry at the front, domination at the back,
append. -/
def updateQueue (dominated : Nat → Nat → Bool) (n : Nat) (k : BitVec 32) (p : Nat) (q : List QueueEntry) :
    List QueueEntry :=
  let live := q.dropWhile fun e => n ≤ entryAge k e
  let kept := (live.reverse.dropWhile fun e => dominated e.value p).reverse
  kept ++ [{ number := k, value := p }]

/-- In a minimum queue a back entry is dominated while its value is at least the new sample (R19). -/
def minDominated (old new : Nat) : Bool := new ≤ old

/-- In a maximum queue a back entry is dominated while its value is at most the new sample (R19). -/
def maxDominated (old new : Nat) : Bool := old ≤ new

/-- The four queues after run k's sample (R19): the short window for two, the long one for two. -/
def updateExtrema (x : Params) (k : BitVec 32) (p : Nat) (q : Extrema) : Extrema :=
  { shortMin := updateQueue minDominated x.winShort k p q.shortMin
    shortMax := updateQueue maxDominated x.winShort k p q.shortMax
    longMin := updateQueue minDominated x.winLong k p q.longMin
    longMax := updateQueue maxDominated x.winLong k p q.longMax }

/-! ### Stage 4: the envelope (R21, R22) -/

/-- The value at a queue's front (R20); after stage 3 no queue is empty. -/
def front (q : List QueueEntry) : Nat :=
  match q with
  | [] => 0
  | e :: _ => e.value

/-- A published envelope: bounds, collapsed flag and gap. -/
structure Envelope where
  lower : Nat
  upper : Nat
  collapsed : Bool
  gap : Nat
  deriving DecidableEq, Repr

/-- The upper bound of R21. -/
def upperBound (x : Params) (q : Extrema) : Nat :=
  min (min (front q.shortMin + x.limShort) (front q.longMin + x.limLong)) x.plantRating

/-- The lower bound of R21; the signed differences are compared with 0, so a limit above the maximum gives 0. -/
def lowerBound (x : Params) (q : Extrema) : Nat :=
  (max (max ((front q.shortMax : Int) - x.limShort) ((front q.longMax : Int) - x.limLong)) 0).toNat

/-- R22: bounds in the wrong order collapse to their midpoint. -/
def envelopeOfBounds (l u : Nat) : Envelope :=
  if l ≤ u then { lower := l, upper := u, collapsed := false, gap := 0 }
  else { lower := (l + u) / 2, upper := (l + u) / 2, collapsed := true, gap := l - u }

/-- Stage 4 (R21, R22). -/
def envelopeOf (x : Params) (q : Extrema) : Envelope := envelopeOfBounds (lowerBound x q) (upperBound x q)

/-! ### METER and HIST-READ (R11, R17) -/

/-- The largest plant quantity (00_scope.md 4.1, R11). -/
def plantTop : Nat := 1000000

/-- The service of METER (R11): the tag is checked before the value. -/
def serveMeter (s : State) (value : BitVec 32) (tag : BitVec 16) : State × Reply :=
  if s.halted then (s, refuse .refusedState)
  else if tag != intervalTag s.engine.counter then (s, refuse .refusedTag)
  else
    let stored := min value.toNat plantTop
    (s.setEngine { s.engine with meter := some { value := stored, tag := tag } },
      { code := if plantTop < value.toNat then .okClamped else .ok, payload := f32 stored ++ (0 : BitVec 32) })

/-- The service of HIST-READ (R17). -/
def serveHistRead (s : State) (age : BitVec 16) : State × Reply :=
  match s.engine.history[age.toNat]? with
  | none => (s, refuse .refusedRange)
  | some e =>
    if historyLength ≤ age.toNat then (s, refuse .refusedRange)
    else
      (s, { code := .ok
            payload := e.number ++ f24 e.sample ++
              f8 (flagAt 0 (e.source == .metered) + flagAt 1 e.clamped) })

end Sys2Proof.Machine
end

