-- ==== Sys2Proof/Machine/Allocation.lean ====
section
/-! DEFINITION. The Dispatch Allocator's stages of a run (chapter 2): forecast, battery preference, dispatch decision,
allowance, allocation, and PLANT-READ. -/

namespace Sys2Proof.Machine

/-! ### Stage 5: the forecast (R26, R27) -/

/-- Whether a station is in the Online mask (R26). -/
def onlineIn (stations : Vector StationSnap 10) (i : StationId) : Bool := (look stations i).state == .online

/-- ΣR: the ratings of the stations in the mask (R26). -/
def ratingSum (stations : Vector StationSnap 10) : Nat :=
  sumStations fun i => if onlineIn stations i then (look stations i).rating else 0

/-- Fc: the available power of the ONLINE stations (R27). -/
def forecastOnline (stations : Vector StationSnap 10) : Nat :=
  sumStations fun i => if onlineIn stations i then (look stations i).avail else 0

/-- Whether a station adds its held meas to U0 (R27). -/
def StationState.held : StationState → Bool
  | .joining | .stale | .faulted | .parked => true
  | .online | .absent => false

/-- U0: the held output of the stations that are present but not ONLINE (R27). -/
def forecastHeld (stations : Vector StationSnap 10) : Nat :=
  sumStations fun i => if (look stations i).state.held then (look stations i).meas else 0

/-! ### Stage 6: the recovery preference (R28, R29) -/

/-- The effective limits of a run (R28). -/
def runLimits (run : RunInputs) : Nat × Nat :=
  effectiveLimits run.storage.state run.storage.soc run.storage.bdis run.storage.bchg run.params.socMin
    run.params.socMax

/-- B_pref (R29): raw preference, clamped to the cap, then to the effective limits. -/
def preference (x : Params) (soc dis chg : Nat) : Int :=
  clamp (-chg) dis (clamp (-x.recoveryCap) x.recoveryCap ((x.socGain : Int) * ((soc : Int) - x.socTarget)))

/-! ### Stages 7 and 8: the dispatch decision and the allowance (R30, R34) -/

/-- What stages 7 and 8 decide. -/
structure Decision where
  b : Int
  plant : PlantState
  allowance : Nat
  shortfall : Nat
  excess : Nat
  deriving DecidableEq, Repr

/-- Stage 7 (R30): the setpoint and the plant state of the five cases, case 3 entered as CURTAIL until stage 8. -/
def dispatchCase (l u f bPref dis chg : Int) : Int × PlantState :=
  let t := f + bPref
  if l ≤ t ∧ t ≤ u then (bPref, .free)
  else if u < t then (if -chg ≤ u - f then (u - f, .absorb) else (-chg, .curtail))
  else if l - f ≤ dis then (l - f, .support)
  else (dis, .short)

/-- Stage 8 (R34) after stage 7: a negative room above the held output is an EXCESS. -/
def decide78 (l u f u0 : Nat) (bPref : Int) (dis chg ratings : Nat) : Decision :=
  let c := dispatchCase l u f bPref dis chg
  let raw : Int := u - c.1 - u0
  { b := c.1
    plant := if raw < 0 then .excess else c.2
    allowance := if raw < 0 then 0 else min raw.toNat ratings
    shortfall := if c.2 = .short then ((l : Int) - f - c.1).toNat else 0
    excess := if raw < 0 then (-raw).toNat else 0 }

/-! ### Stage 9: the allocation (R36 to R39) -/

/-- The exact shares of stage 9: for each station of the mask what it keeps, its numerator, and the common divisor
with the total to divide. A divisor of 0 means the largest-remainder rule is not applied (R38, Sp = 0). -/
structure Shares where
  kept : StationId → Nat
  numerator : StationId → Nat
  divisor : Nat
  total : Nat

/-- A station's spare rating (R38). -/
def spareOf (stations : Vector StationSnap 10) (i : StationId) : Nat :=
  (look stations i).rating - (look stations i).avail

/-- The sum of the spares of the mask (R38). -/
def spareSum (stations : Vector StationSnap 10) : Nat :=
  sumStations fun i => if onlineIn stations i then spareOf stations i else 0

/-- The curtailing case (R37) when A is below Fc, else the headroom case (R38). -/
def sharesOf (stations : Vector StationSnap 10) (a fc : Nat) : Shares :=
  if a < fc then
    { kept := fun _ => 0, numerator := fun i => a * (look stations i).avail, divisor := fc, total := a }
  else
    { kept := fun i => (look stations i).avail, numerator := fun i => (a - fc) * spareOf stations i,
      divisor := spareSum stations, total := a - fc }

/-- The floor of a share (R37, R38). -/
def Shares.floor (x : Shares) (i : StationId) : Nat := x.numerator i / x.divisor

/-- The remainder kept for the largest-remainder rule. -/
def Shares.remainder (x : Shares) (i : StationId) : Nat := x.numerator i % x.divisor

/-- The leftover K (R39). -/
def Shares.leftover (x : Shares) (mask : StationId → Bool) : Nat :=
  x.total - sumStations fun i => if mask i then x.floor i else 0

/-- Whether station j ranks before station i: a larger remainder, or an equal one and a lower port (R39). -/
def Shares.ranksBefore (x : Shares) (j i : StationId) : Bool :=
  x.remainder i < x.remainder j || (x.remainder j == x.remainder i && j.val < i.val)

/-- How many stations of the mask rank before station i (R39). -/
def Shares.rank (x : Shares) (mask : StationId → Bool) (i : StationId) : Nat :=
  sumStations fun j => if mask j && x.ranksBefore j i then 1 else 0

/-- The offer to a station of the mask: what it keeps, its floor, and one more for the first K in rank (R37 to R39). -/
def Shares.offer (x : Shares) (mask : StationId → Bool) (i : StationId) : Nat :=
  if x.divisor = 0 then x.kept i
  else x.kept i + x.floor i + (if x.rank mask i < x.leftover mask then 1 else 0)

/-- Stage 9: the offers, 0 outside the mask (R36). -/
def offersOf (stations : Vector StationSnap 10) (a fc : Nat) : Vector Nat 10 :=
  let x := sharesOf stations a fc
  tabulate fun i => if onlineIn stations i then x.offer (onlineIn stations) i else 0

/-! ### PLANT-READ (R178) -/

/-- Bytes 6 to 11 of a PLANT-READ page, none above page 12 (R178). -/
def Published.page (r : Published) (page : Nat) : Option (BitVec 48) :=
  match page with
  | 0 => some (r.number ++
      f8 (r.plant.code + flagAt 3 r.collapsed + flagAt 4 (r.source == .metered) + flagAt 5 r.clamped +
        flagAt 6 r.storageOnline) ++ (0 : BitVec 8))
  | 1 => some (f24 r.rating ++ f24 r.sample)
  | 2 => some (f24 r.lower ++ f24 r.upper)
  | 3 => some (f24 r.gap ++ f24 r.forecast)
  | 4 => some (f24 r.fc ++ f24 r.u0)
  | 5 => some (s24 r.bPref ++ s24 r.b)
  | 6 => some (f24 r.allowance ++ f24 r.shortfall)
  | 7 => some (f24 r.excess ++ f24 (bitsOf r.mask))
  | n =>
    match index? 10 (2 * (n - 8)), index? 10 (2 * (n - 8) + 1) with
    | some a, some b => some (f16 (look r.offers a) ++ f16 (look r.offers b) ++ (0 : BitVec 16))
    | _, _ => none

/-- The service of PLANT-READ (R178). -/
def servePlantRead (s : State) (page : Byte) : State × Reply :=
  match s.published.page page.toNat with
  | some x => (s, { code := .ok, payload := s.published.tag ++ x })
  | none => (s, refuse .refusedRange)

end Sys2Proof.Machine
end

