-- ==== Sys2Proof/Machine/RampMonitor.lean ====
section
/-! DEFINITION. The Ramp Monitor (chapter 7): the compliance check, the responsible station, freeze scopes, the
capture record, run-scoped causes, and its requests. -/

namespace Sys2Proof.Machine

/-! ### The results of a run's stages (R5) -/

/-- The compliance check of a sample (R121). -/
structure RampCheck where
  checked : Bool
  lower : Nat
  upper : Nat
  dUp : Int
  dDn : Int
  d : Nat
  deriving DecidableEq, Repr

/-- Everything a run computes before its publication (R5). -/
structure RunResult where
  run : RunInputs
  sample : Sample
  ramp : RampCheck
  queues : Extrema
  record : Published
  deriving DecidableEq, Repr

/-- Stage 2 (R121): the sample against the envelope of the record in force; no check against the cleared record. -/
def rampCheck (prev : Published) (p : Nat) : RampCheck :=
  if prev.plant = .none then { checked := false, lower := 0, upper := 0, dUp := 0, dDn := 0, d := 0 }
  else
    let up : Int := p - prev.upper
    let dn : Int := prev.lower - p
    { checked := true, lower := prev.lower, upper := prev.upper, dUp := up, dDn := dn, d := (max (max up dn) 0).toNat }

/-- Whether the run has a soft violation (R122). -/
def RunResult.soft (x : RunResult) : Bool := x.run.params.tolSoft < x.ramp.d

/-- Whether the run has a hard violation (R122). -/
def RunResult.hard (x : RunResult) : Bool := x.run.params.tolHard < x.ramp.d

/-- Whether the run's violation is upward (R122). -/
def RunResult.upward (x : RunResult) : Bool := 0 < x.ramp.dUp

/-- Whether the run has a hard upward violation (R124, R125). -/
def RunResult.hardUpward (x : RunResult) : Bool := x.hard && x.upward

/-! ### The responsible station (R124) -/

/-- A candidate's excess over its applied ceiling, none for a station that is no candidate (R124). -/
def candidateExcess (e : StationSnap) : Option Nat :=
  if e.state = .online && e.applied < e.meas then some (e.meas - e.applied) else none

/-- The better of the best candidate so far and the next station in port order: a larger excess wins, an equal one
leaves the lower port (R124). -/
def betterCandidate (stations : Vector StationSnap 10) (best : Option (StationId × Nat)) (i : StationId) :
    Option (StationId × Nat) :=
  match candidateExcess (look stations i), best with
  | some x, some (_, y) => if y < x then some (i, x) else best
  | some x, none => some (i, x)
  | none, _ => best

/-- The responsible station of a run with its excess (R124): only a hard upward violation has one. -/
def RunResult.responsible (x : RunResult) : Option (StationId × Nat) :=
  if x.hardUpward then stationIds.foldl (betterCandidate x.run.stations) none else none

/-! ### Freeze scopes (R125 to R129) -/

/-- The scope a run freezes (R125). -/
def RunResult.freezes (x : RunResult) : Option ScopeId :=
  if x.hardUpward then
    match x.run.params.hardResponse with
    | .report => none
    | .freezePlant => some plantScope
    | .freezeGroup =>
      match x.responsible with
      | some (i, _) => some (groupScope (look x.run.stations i).group)
      | none => some plantScope
  else none

/-- Whether a run is clean for the scopes (R127). -/
def RunResult.clean (x : RunResult) : Bool := x.ramp.dUp ≤ x.run.params.tolSoft

/-- The clean-run count and automatic release of a scope at a publication that made the check (R127). -/
def Scope.count (clean : Bool) (auto : Nat) (x : Scope) : Scope :=
  if x.frozen then
    let n := if clean then saturate 255 x.cleanRuns else 0
    if 0 < auto && auto ≤ n then Scope.released else { x with cleanRuns := n }
  else x

/-- Whether any scope is frozen. -/
def Ramp.anyFrozen (x : Ramp) : Bool := scopeIds.any fun n => (look x.scopes n).frozen

/-- The frozen state of the five scopes as a byte: bits 0 to 3 the groups, bit 4 PLANT (R166). -/
def Ramp.frozenByte (x : Ramp) : BitVec 8 := f8 (bitsOf (tabulate fun n => (look x.scopes n).frozen))

/-- Scopes replaced by counted or released ones, with the effects of a release (R129): the FREEZE condition ends
when a release leaves no scope frozen, and raise-ready is re-evaluated. -/
def State.releaseScopes (s : State) (scopes : Vector Scope 5) : State :=
  let released := scopeIds.any fun n => (look s.ramp.scopes n).frozen && !(look scopes n).frozen
  let t := s.setRamp { s.ramp with scopes := scopes }
  if released then
    (if t.ramp.anyFrozen then t else t.conditionEnded .freeze 0).evalReadyAll
  else t

/-- A scope frozen with a count of 0 (R125): FREEZE fires and raise-ready is re-evaluated when it was released. -/
def State.freezeScope (s : State) (n : ScopeId) : State :=
  let was := (look s.ramp.scopes n).frozen
  let t := s.setRamp { s.ramp with scopes := put s.ramp.scopes n { frozen := true, cleanRuns := 0 } }
  if was then t else (t.firePlant .freeze).evalReadyAll

/-! ### The capture record (R130, R131) -/

/-- The station list of a capture (R130): every station not ABSENT in the snapshot, in ascending port order. -/
def captureStations (stations : Vector StationSnap 10) : List CaptureStation :=
  (stationIds.filter fun i => (look stations i).state != .absent).map fun i =>
    let e := look stations i
    { port := i, state := e.state, meas := e.meas, avail := e.avail, applied := e.applied }

/-- What the capture record loads from a run (R130). -/
def RunResult.capture (x : RunResult) : CaptureData :=
  { number := x.run.number, sample := x.sample.value, source := x.sample.source, clamped := x.sample.clamped,
    checked := x.ramp.checked, lower := x.ramp.lower, upper := x.ramp.upper, dUp := x.ramp.dUp, dDn := x.ramp.dDn,
    forecast := x.record.forecast, fc := x.record.fc, u0 := x.record.u0, bPref := x.record.bPref, b := x.record.b,
    allowance := x.record.allowance, shortfall := x.record.shortfall, excess := x.record.excess,
    plant := x.record.plant, collapsed := x.record.collapsed, responsible := x.responsible,
    frozenScope := x.freezes, stations := captureStations x.run.stations }

/-- Whether a capture record is LOCKED. -/
def Capture.isLocked : Capture → Bool
  | .locked _ => true
  | .empty | .loaded _ => false

/-- The capture record after a publication (R131). -/
def Capture.publish (c : Capture) (x : RunResult) : Capture :=
  match c with
  | .locked d => .locked d
  | .empty | .loaded _ => if x.hard then .locked x.capture else .loaded x.capture

/-! ### The Ramp Monitor's share of a publication (R135) -/

/-- The plant ramp statuses after a run (R122). -/
def Ramp.setStatuses (r : Ramp) (x : RunResult) : Ramp :=
  { r with
    softUp := r.softUp || (x.soft && x.upward)
    softDown := r.softDown || (x.soft && !x.upward)
    hardUp := r.hardUp || (x.hard && x.upward)
    hardDown := r.hardDown || (x.hard && !x.upward) }

/-- Statuses, capture and the causes of the violations (R122, R131): the RAMP-HARD firing carries the capture-locked
flag at the run that locks the record. -/
def State.rampViolations (s : State) (x : RunResult) : State :=
  let locks := x.hard && !s.ramp.capture.isLocked
  let t := s.setRamp { s.ramp.setStatuses x with capture := s.ramp.capture.publish x }
  let t := if x.soft then t.firePlant .rampSoft else t
  if x.hard then t.fireFlagged .rampHard 0 locks else t

/-- The clean-run counts, automatic releases and the freeze of a run (R125, R127). -/
def State.rampScopes (s : State) (x : RunResult) : State :=
  let t := if x.ramp.checked then
    s.releaseScopes (tabulate fun n => (look s.ramp.scopes n).count x.clean x.run.params.freezeAuto) else s
  match x.freezes with
  | some n => t.freezeScope n
  | none => t

/-- The run-scoped causes (R134). -/
def State.runCauses (s : State) (x : RunResult) : State :=
  (((s.fireWhile .collapse x.record.collapsed).fireWhile .shortfall (0 < x.record.shortfall)).fireWhile .excess
    (0 < x.record.excess)).fireWhile .meterFallback x.sample.fallback

/-- The Ramp Monitor's share of a publication (R135). -/
def State.rampPublication (s : State) (x : RunResult) : State :=
  ((s.rampViolations x).rampScopes x).runCauses x

/-! ### Requests: FAULT-CLEAR of the plant, FREEZE-RELEASE, CAPT-RELEASE, CAPT-READ -/

/-- The service of FAULT-CLEAR for the plant (R123). -/
def serveFaultClearPlant (s : State) : State × Reply :=
  let t := s.setRamp { s.ramp with softUp := false, softDown := false, hardUp := false, hardDown := false }
  ((t.conditionEnded .rampSoft 0).conditionEnded .rampHard 0, { code := .ok, payload := 0 })

/-- The service of FAULT-CLEAR (R116, R123): byte 255 names the plant, 0 to 9 a station. -/
def serveFaultClearNamed (s : State) (station : Byte) : State × Reply :=
  if station = 255#8 then serveFaultClearPlant s
  else
    match index? 10 station.toNat with
    | some i => serveFaultClear s i
    | none => (s, refuse .refusedRange)

/-- The scopes a FREEZE-RELEASE names (R128): a group, PLANT, or ALL by 255; none for any other value. -/
def namedScopes (scope : Byte) : Option (List ScopeId) :=
  if scope = 255#8 then some scopeIds else (index? 5 scope.toNat).map fun n => [n]

/-- The service of FREEZE-RELEASE (R128). -/
def serveFreezeRelease (s : State) (scope : Byte) : State × Reply :=
  match namedScopes scope with
  | none => (s, refuse .refusedRange)
  | some ns =>
    let t := s.releaseScopes (tabulate fun n =>
      let x := look s.ramp.scopes n
      if ns.contains n && x.frozen then Scope.released else x)
    (t, { code := .ok, payload := t.ramp.frozenByte ++ (0 : BitVec 56) })

/-- The code of a capture state (R166). -/
def Capture.code : Capture → Nat
  | .empty => 0 | .loaded _ => 1 | .locked _ => 2

/-- The contents of a capture record, none while EMPTY. -/
def Capture.data? : Capture → Option CaptureData
  | .empty => none
  | .loaded d | .locked d => some d

/-- A LOCKED record becomes LOADED with its contents (R132). -/
def Capture.release : Capture → Capture
  | .locked d => .loaded d
  | .loaded d => .loaded d
  | .empty => .empty

/-- The service of CAPT-RELEASE (R132). -/
def serveCaptRelease (s : State) : State × Reply :=
  let t := s.setRamp { s.ramp with capture := s.ramp.capture.release }
  (t, { code := .ok, payload := f8 t.ramp.capture.code ++ (0 : BitVec 56) })

/-- The monitor page of CAPT-READ (R133, R166). -/
def Ramp.monitorPage (r : Ramp) : BitVec 64 :=
  let n (k : ScopeId) : BitVec 8 := f8 (look r.scopes k).cleanRuns
  f8 (flagAt 0 r.softUp + flagAt 1 r.softDown + flagAt 2 r.hardUp + flagAt 3 r.hardDown) ++ f8 r.capture.code ++
    r.frozenByte ++ n 0 ++ n 1 ++ n 2 ++ n 3 ++ n 4

/-- A header page 1 to 8 of the capture record (R133, R166). DEDUCED, the model's choice: on page 8 the port and the
excess of an absent responsible station and the scope of an absent frozen scope read 0; no rule gives the fields of a
clear present flag a value (log entry 30). -/
def CaptureData.headerPage (d : CaptureData) (index : Nat) : BitVec 64 :=
  match index with
  | 1 => d.number ++ f32 d.sample
  | 2 => s32 d.lower ++ s32 d.upper
  | 3 => s32 d.dUp ++ s32 d.dDn
  | 4 => f32 d.forecast ++ f32 d.fc
  | 5 => f32 d.u0 ++ f32 d.allowance
  | 6 => s32 d.bPref ++ s32 d.b
  | 7 => f32 d.shortfall ++ f32 d.excess
  | _ =>
    let flags := flagAt 0 (d.source == .metered) + flagAt 1 d.clamped + flagAt 2 d.checked + flagAt 3 d.collapsed
    let responsible : BitVec 24 :=
      match d.responsible with
      | some (i, x) => f8 (flagAt 7 true + i.val) ++ f16 x
      | none => 0
    let scope : BitVec 8 :=
      match d.frozenScope with
      | some n => f8 (flagAt 7 true + n.val)
      | none => 0
    f8 flags ++ f8 d.plant.code ++ f8 d.stations.length ++ responsible ++ scope ++ (0 : BitVec 8)

/-- A subrecord page (R133, R166). -/
def CaptureStation.page (e : CaptureStation) : BitVec 64 :=
  f8 (e.port.val + 16 * e.state.code) ++ f16 e.meas ++ f16 e.avail ++ f16 e.applied ++ (0 : BitVec 8)

/-- The service of CAPT-READ (R133): index above 18, then an EMPTY record, then the list length. -/
def serveCaptRead (s : State) (index : Byte) : State × Reply :=
  let n := index.toNat
  if n = 0 then (s, { code := .ok, payload := s.ramp.monitorPage })
  else if 18 < n then (s, refuse .refusedRange)
  else
    match s.ramp.capture.data? with
    | none => (s, refuse .refusedState)
    | some d =>
      if n ≤ 8 then (s, { code := .ok, payload := d.headerPage n })
      else
        match d.stations[n - 9]? with
        | some e => (s, { code := .ok, payload := e.page })
        | none => (s, refuse .refusedRange)

end Sys2Proof.Machine
end

