-- ==== Sys2Proof/Machine/Run.lean ====
section
/-! DEFINITION. The run (R4 to R9): its start at a timer expiry, its result, its publication, and the engine's start
and halt (R8, R10). -/

namespace Sys2Proof.Machine

/-! ### Run start (R4, R59, R60, R97) -/

/-- One more run begun on an entry that is not ABSENT (R59). -/
def Station.grow (e : Station) : Station :=
  if e.state = .absent then e else { e with age := saturate 255 e.age }

/-- Whether an entry is ONLINE with an age above TEL_WMAX (R59). -/
def State.tooOld (s : State) (i : StationId) : Bool :=
  (s.station i).state == .online && decide (s.params.telWmax < (s.station i).age)

/-- The stale transition of an entry, which ends an open interlock (R59, R85). -/
def State.becomeStale (s : State) (i : StationId) : State :=
  (s.setEntryState i .stale).updStation i fun e => { e with staleDuration := 0 }

/-- The notices of a stale transition: STN-STALE and STALE-ENTRY (R59). -/
def State.reportStale (s : State) (i : StationId) : State :=
  (s.fire .stnStale i).statEvent .staleEntry 0 (stationPort i)

/-- One more run start passed in STALE, with DEAD at the one that reaches TEL_WDEAD (R60, R107). DESIGN CHOICE of the
model: R60 sends DEAD once per stay in STALE, R107 when the duration reaches a raised TEL_WDEAD; where TEL_WDEAD is
raised after a DEAD in the same stay, the model follows R107 and sends a second DEAD (log entry 29). -/
def State.staleLonger (s : State) (i : StationId) : State :=
  let old := (s.station i).staleDuration
  let new := saturate 255 old
  let s := s.updStation i fun e => { e with staleDuration := new }
  if new = s.params.telWdead && old != new then s.monitorEvent i .dead else s

/-- The parts of a run start that can hand over a source event (R59, R60): the stale transition with the interlock's
end, its notices, and the longer stay of an entry that was STALE. -/
inductive AgeingPart where
  | becomes | reports | longer
  deriving DecidableEq, Repr

/-- One part of a run start, on station i. -/
def State.ageingPart (s : State) (x : StationId × AgeingPart) : State :=
  match x.2 with
  | .becomes => s.becomeStale x.1
  | .reports => s.reportStale x.1
  | .longer => s.staleLonger x.1

/-- The ageing of the Station Table at a run start (R59, R60): all ages, then the stale transitions, and the stale
durations of the entries that were STALE before. INTERLOCK-END, STALE-ENTRY and the FAULT-ENTRY of a DEAD are steps of
their own, taken in any order (R50, R142, log entry 15). -/
def State.ageStations (s : State) : State :=
  let grown := s.updStations fun _ e => e.grow
  grown.together State.ageingPart
    (((stationIds.filter grown.tooOld).flatMap fun i => [[(i, .becomes)], [(i, .reports)]]) ++
      (stationIds.filter fun i => (s.station i).state == .stale).map fun i => [(i, .longer)])

/-- Whether the DEAD of a run start made an entry FAULTED whose FAULT-CLEAR is the event just before it: the clear may
have been taken at the instant of the run start. -/
def State.clearMeetsDead (before aged : State) (i : StationId) : Bool :=
  (before.station i).state == .stale && (aged.station i).state == .faulted && before.lastClear == some i

/-- The states a run's snapshot shows. R109 puts a DEAD before the snapshot of the run whose start sends it; R117 lets
that snapshot see STALE where a FAULT-CLEAR was taken first at the same instant, with DEAD faulting the entry for the
following runs. Elapsed time is left out (log entry 3), so where the FAULT-CLEAR is the event just before the run start
a free choice decides (log entry 24); the live entry is FAULTED either way. -/
def State.snapshotStates (before aged : State) : Vector StationState 10 × State :=
  if stationIds.any (before.clearMeetsDead aged) then
    let (n, t) := aged.choose 2
    (tabulate fun i => if before.clearMeetsDead aged i && n == 1 then .stale else (aged.station i).state, t)
  else (tabulate fun i => (aged.station i).state, aged)

/-- The snapshot of the Station Table (R49), with the states it shows. -/
def State.stationSnapshot (s : State) (shown : Vector StationState 10) : Vector StationSnap 10 :=
  tabulate fun i =>
    let e := s.station i
    { state := look shown i, rating := e.rating, group := e.group, meas := e.meas, avail := e.avail, applied := e.applied }

/-- The snapshot of the Storage Record (R91). -/
def State.storageSnapshot (s : State) : StorageSnap :=
  { state := s.storage.state, meas := s.storage.meas, soc := s.storage.soc, bdis := s.storage.bdis,
    bchg := s.storage.bchg }

/-- The start of a run at the expiry that ends interval k (R2, R4): the counter advances, the tables age, the
snapshots are taken, the meter slot is read and emptied. What the snapshot shows of an entry that DEAD made FAULTED
right after its FAULT-CLEAR is a free choice between R109 and R117 (log entry 24). -/
def State.startRun (s : State) : State :=
  let k := s.engine.counter
  let (shown, s) := s.snapshotStates s.ageStations.ageStorage
  let run : RunInputs :=
    { number := k, stations := s.stationSnapshot shown, storage := s.storageSnapshot, params := s.params,
      meter := s.engine.meter }
  (s.setEngine { s.engine with run := .inFlight run, counter := k + 1, meter := none }).nextEvent

/-! ### The result of a run (R5, R41) -/

/-- Stages 4 to 9 assembled into the record of R41. -/
def recordOf (run : RunInputs) (sample : Sample) (q : Extrema) : Published :=
  let env := envelopeOf run.params q
  let fc := forecastOnline run.stations
  let u0 := forecastHeld run.stations
  let limits := runLimits run
  let bPref := preference run.params run.storage.soc limits.1 limits.2
  let d := decide78 env.lower env.upper (fc + u0) u0 bPref limits.1 limits.2 (ratingSum run.stations)
  { number := run.number, rating := run.params.plantRating, sample := sample.value, source := sample.source,
    clamped := sample.clamped, lower := env.lower, upper := env.upper, collapsed := env.collapsed, gap := env.gap,
    plant := d.plant, forecast := fc + u0, fc := fc, u0 := u0, storageOnline := run.storage.state == .online,
    bPref := bPref, b := d.b, allowance := d.allowance, shortfall := d.shortfall, excess := d.excess,
    mask := tabulate (onlineIn run.stations), offers := offersOf run.stations d.allowance fc }

/-- Everything a run computes, from its inputs, the committed queues and the record in force (R5). -/
def resultOf (run : RunInputs) (queues : Extrema) (prev : Published) : RunResult :=
  let sample := sampleOf run
  let q := updateExtrema run.params run.number sample.value queues
  { run := run, sample := sample, ramp := rampCheck prev sample.value, queues := q, record := recordOf run sample q }

/-! ### Publication (R6, R45) -/

/-- A source event that occurs when its condition holds. -/
def eventIf (c : Bool) (x : StatSource) (mag : Nat) : RunEvents := if c then [(x, mag)] else []

/-- Whether the battery was moved below its preference (R46). -/
def PlantState.absorbs : PlantState → Bool
  | .absorb | .curtail | .excess => true
  | .free | .support | .short | .none => false

/-- Whether the battery was moved above its preference (R46). -/
def PlantState.supports : PlantState → Bool
  | .support | .short => true
  | .free | .absorb | .curtail | .excess | .none => false

/-- The run-scoped source events of a run (R46, R122, R134). -/
def RunResult.events (x : RunResult) : RunEvents :=
  let r := x.record
  [(.run, 0)] ++ eventIf (r.allowance < r.fc) .curtail (r.fc - r.allowance) ++
    eventIf r.plant.absorbs .absorb (r.bPref - r.b).toNat ++ eventIf r.plant.supports .support (r.b - r.bPref).toNat ++
    eventIf (0 < r.shortfall) .shortfall r.shortfall ++ eventIf (0 < r.excess) .excess r.excess ++
    eventIf r.collapsed .collapse r.gap ++ eventIf x.soft .rampSoft x.ramp.d ++ eventIf x.hard .rampHard x.ramp.d ++
    eventIf x.sample.fallback .meterFallback 0

/-- The entry a run adds to the history ring (R16). -/
def RunResult.entry (x : RunResult) : HistEntry :=
  { number := x.run.number, sample := x.sample.value, source := x.sample.source, clamped := x.sample.clamped }

/-- The engine's and the allocator's commit (R6): history, queues, record, and the engine RUNNING again. -/
def State.commitRun (s : State) (x : RunResult) : State :=
  (s.setEngine { s.engine with
    run := .running, history := pushHistory s.engine.history x.entry, queues := x.queues }).setPublished x.record

/-- A publication (R6): everything committed together, then the actions of R45. -/
def State.publish (s : State) (x : RunResult) : State :=
  ((((s.nextEvent.commitRun x).rampPublication x).statPublication x.events x.record.plant x.record.collapsed).grantPublication
    ).answerHeldDispatch

/-! ### ENG-HALT and ENG-START (R8, R10) -/

/-- The engine's and the allocator's part of a halt (R8, R9): the timer stops, a run in flight is abandoned with its
working values, the slot is emptied, the record cleared. History, queues and counter stay. -/
def State.stopEngine (s : State) : State :=
  (s.setEngine { s.engine with run := .halted, timer := .stopped, meter := none }).setPublished Published.cleared

/-- An accepted ENG-HALT of an engine that is not HALTED (R8, R87, R99). -/
def State.haltEngine (s : State) : State := s.stopEngine.grantHalt.answerHeldDispatch

/-- The service of ENG-HALT (R3). -/
def serveEngHalt (s : State) : State × Reply :=
  (if s.halted then s else s.haltEngine, { code := .ok, payload := 0 })

/-- ENG-START clears every edge flag (R141). -/
def Stats.clearEdges (st : Stats) : Stats :=
  { st with counters := tabulate fun n => { look st.counters n with edge := false } }

/-- An accepted ENG-START (R10, section 11.2). -/
def State.startEngine (s : State) : State :=
  let s := (s.setEngine
    { run := .running, timer := .running s.params.interval, counter := 0, meter := none, history := [],
      queues := Extrema.empty }).setPublished Published.cleared
  let s := (s.updStations fun _ e => { e with age := 0 }).setStorage { s.storage with age := 0 }
  let s := (s.setStats s.stats.clearEdges).releaseScopes (Vector.replicate 5 Scope.released)
  s.evalReadyAll

/-- The service of ENG-START (R3). -/
def serveEngStart (s : State) : State × Reply :=
  if s.halted then (s.startEngine, { code := .ok, payload := 0 }) else (s, refuse .refusedState)

end Sys2Proof.Machine
end

