-- ==== Sys2Proof/Machine/Parameters.lean ====
section
/-! DEFINITION. The Parameter Table's requests (chapter 11) and ENTRY-READ of a station (R67): identifiers, indexes,
clamping, and the writes that act at once. -/

namespace Sys2Proof.Machine

/-- How many entries a parameter has, none for an identifier outside 1 to 31 (R175). -/
def paramCount (id : Nat) : Option Nat :=
  if id = 0 || 31 < id then none
  else
    match id with
    | 17 => some 10
    | 18 => some 10
    | 26 => some 4
    | 29 => some 12
    | 30 => some 8
    | 31 => some 12
    | _ => some 1

/-- The parameters marked H, written only while the engine is HALTED: INTERVAL, WIN_SHORT, WIN_LONG and
PLANT_RATING (R175). -/
def paramHaltedOnly (id : Nat) : Bool := [1, 2, 3, 6].contains id

/-- A value outside [lo, hi] is stored as the nearest bound (R176). -/
def nearest (lo hi v : Nat) : Nat := max lo (min hi v)

/-- INTERVAL's nearest allowed length, the longer one midway (R176). -/
def nearestInterval (v : Nat) : Nat :=
  if v < 150 then 100 else if v < 225 then 200 else if v < 375 then 250 else if v < 750 then 500 else 1000

/-- The stored number of an URGENT entry: 255 is the empty code (R171). -/
def urgentCode : Option Byte → Nat
  | some k => k.toNat
  | none => 255

/-- The stored number of a routing entry (R175): bits 0 to 11 mask, bit 12 own port, bit 13 CLEAR release. -/
def Route.code (r : Route) : Nat := r.mask.toNat + flagAt 12 r.ownPort + flagAt 13 (r.release == .clear)

/-- The routing entry a write of a value stores for the kind of a code (R155): own port is held clear for kinds 3 to
11, bits above 13 are ignored. -/
def Route.ofValue (kind : Fin 12) (v : BitVec 32) : Route :=
  { mask := v.truncate 12
    ownPort := v.getLsbD 12 && decide (kind.val ≤ 2)
    release := if v.getLsbD 13 then .clear else .ack }

/-- The stored value of a parameter (R175): what PARAM-GET returns. -/
def getParam (s : State) (id index : Nat) : Nat :=
  let x := s.params
  match id with
  | 1 => x.interval
  | 2 => x.winShort
  | 3 => x.winLong
  | 4 => x.limShort
  | 5 => x.limLong
  | 6 => x.plantRating
  | 7 => x.sampleSource.code
  | 8 => x.socTarget
  | 9 => x.socGain
  | 10 => x.recoveryCap
  | 11 => x.socMin
  | 12 => x.socMax
  | 13 => x.tolSoft
  | 14 => x.tolHard
  | 15 => x.hardResponse.code
  | 16 => x.freezeAuto
  | 17 => ((index? 10 index).map fun i => (s.station i).rating).getD 0
  | 18 => ((index? 10 index).map fun i => (s.station i).group.val).getD 0
  | 19 => x.telWmin
  | 20 => x.telWmax
  | 21 => x.telWdead
  | 22 => x.ovsTol
  | 23 => x.ovsCount
  | 24 => x.plausTol
  | 25 => x.faultCap
  | 26 =>
    match index with
    | 0 => x.monWindow.code
    | 1 => x.monOvershoot.code
    | 2 => x.monPlausibility.code
    | _ => x.monInterlock.code
  | 27 => x.takeDeadline
  | 28 => x.raiseStep
  | 29 => ((index? 12 index).map fun p => (s.port p).depth.frames).getD 0
  | 30 => ((index? 8 index).map fun n => urgentCode (look x.urgent n)).getD 0
  | _ => ((index? 12 index).map fun k => (look s.router.routes k).code).getD 0

/-! ### Writes that act at once -/

/-- A write of STATION_RATING (R65): in PARKED it also lowers the applied ceiling, the park ceiling and the avail. -/
def Station.writeRating (e : Station) (r : Nat) : Station :=
  if e.state = .parked then
    { e with rating := r, applied := min e.applied r, park := e.park.map (min r), avail := min e.avail r }
  else { e with rating := r }

/-- A write of STATION_GROUP (R66): 0 to 3, a larger value stored as 3; raise-ready is re-evaluated (R88). -/
def State.writeGroup (s : State) (i : StationId) (v : Nat) : State :=
  (s.updStation i fun e => { e with group := ⟨min 3 v, by omega⟩ }).evalReady i

/-- A write of MON_MODE (R119): the mode alone changes. -/
def Params.writeMode (x : Params) (index : Nat) (m : MonMode) : Params :=
  match index with
  | 0 => { x with monWindow := m }
  | 1 => { x with monOvershoot := m }
  | 2 => { x with monPlausibility := m }
  | _ => { x with monInterlock := m }

/-- A DROP event for each of n frames discarded on a port (R168). -/
def State.dropEvents (s : State) (p : Port) : Nat → State
  | 0 => s
  | n + 1 => (s.statEvent .drop 0 p).dropEvents p n

/-- A write of QUEUE_DEPTH (R168): the newest frames beyond the new depth are discarded as drops. -/
def State.writeDepth (s : State) (p : Port) (v : Nat) : State :=
  let depth := Depth.ofValue v
  let dropped := (s.port p).requests.length - depth.frames
  (s.updPort p fun x =>
    { x with depth := depth, requests := x.requests.take depth.frames, drop := x.drop || decide (0 < dropped) }
    ).dropEvents p dropped

/-- The URGENT entry a write of a value stores in a position (R171): empty for the empty code, for a code that names
no kind, and for a code held in another position. -/
def urgentStored (urgent : Vector (Option Byte) 8) (n : Fin 8) (v : Nat) : Option Byte :=
  let k : Byte := BitVec.ofNat 8 v
  let elsewhere := (List.finRange 8).any fun m => m != n && look urgent m == some k
  if v < 255 && kindDefined k && !elsewhere then some k else none

/-- A parameter stored (R176, and the rules named in R175's table). -/
def storeParam (s : State) (id index : Nat) (value : BitVec 32) : State :=
  let x := s.params
  let v := value.toNat
  match id with
  | 1 => s.setParams { x with interval := nearestInterval v }
  | 2 => s.setParams { x with winShort := min (nearest 2 64 v) x.winLong }
  | 3 => s.setParams { x with winLong := max (min 600 v) x.winShort }
  | 4 => s.setParams { x with limShort := nearest 0 1000000 v }
  | 5 => s.setParams { x with limLong := nearest 0 1000000 v }
  | 6 => s.setParams { x with plantRating := nearest 1 1000000 v }
  | 7 => s.setParams { x with sampleSource := SampleSource.ofCode v }
  | 8 => s.setParams { x with socTarget := nearest 0 1000 v }
  | 9 => s.setParams { x with socGain := nearest 0 255 v }
  | 10 => s.setParams { x with recoveryCap := nearest 0 65535 v }
  | 11 => s.setParams { x with socMin := min (nearest 0 1000 v) x.socMax }
  | 12 => s.setParams { x with socMax := max (nearest 0 1000 v) x.socMin }
  | 13 => s.setParams { x with tolSoft := min (nearest 0 65535 v) x.tolHard }
  | 14 => s.setParams { x with tolHard := max (nearest 0 65535 v) x.tolSoft }
  | 15 => s.setParams { x with hardResponse := HardResponse.ofCode v }
  | 16 => s.setParams { x with freezeAuto := nearest 0 255 v }
  | 17 =>
    match index? 10 index with
    | some i => s.updStation i fun e => e.writeRating (nearest 0 65535 v)
    | none => s
  | 18 =>
    match index? 10 index with
    | some i => s.writeGroup i v
    | none => s
  | 19 => s.setParams { x with telWmin := nearest 0 15 v }
  | 20 => s.setParams { x with telWmax := nearest 1 15 v }
  | 21 => s.setParams { x with telWdead := nearest 1 255 v }
  | 22 => s.setParams { x with ovsTol := nearest 0 65535 v }
  | 23 => s.setParams { x with ovsCount := nearest 1 15 v }
  | 24 => s.setParams { x with plausTol := nearest 0 65535 v }
  | 25 => s.setParams { x with faultCap := nearest 0 1000 v }
  | 26 => s.setParams (x.writeMode index (MonMode.ofCode v))
  | 27 => s.setParams { x with takeDeadline := nearest 1 15 v }
  | 28 => (s.setParams { x with raiseStep := nearest 0 65535 v }).evalReadyAll
  | 29 =>
    match index? 12 index with
    | some p => s.writeDepth p v
    | none => s
  | 30 =>
    match index? 8 index with
    | some n => s.setParams { x with urgent := put x.urgent n (urgentStored x.urgent n v) }
    | none => s
  | _ =>
    match index? 12 index with
    | some k => s.setRouter { s.router with routes := put s.router.routes k (Route.ofValue k value) }
    | none => s

/-! ### PARAM-SET and PARAM-GET (R175) -/

/-- The payload of a parameter answer: identifier, index, stored value (R175). -/
def paramPayload (id index : Byte) (stored : Nat) : BitVec 64 := id ++ index ++ f32 stored ++ (0 : BitVec 16)

/-- Whether a write of STATION_RATING is accepted in the entry's state (R65). -/
def ratingWritable (s : State) (index : Nat) : Bool :=
  match index? 10 index with
  | some i => (s.station i).state == .absent || (s.station i).state == .parked
  | none => false

/-- The service of PARAM-SET (R175, R176): identifier, index, engine state, entry state, then the store. -/
def serveParamSet (s : State) (id index : Byte) (value : BitVec 32) : State × Reply :=
  match paramCount id.toNat with
  | none => (s, refuse .refusedParam)
  | some n =>
    if n ≤ index.toNat then (s, refuse .refusedRange)
    else if paramHaltedOnly id.toNat && !s.halted then (s, refuse .refusedState)
    else if id.toNat = 17 && !ratingWritable s index.toNat then (s, refuse .refusedState)
    else
      let t := storeParam s id.toNat index.toNat value
      let stored := getParam t id.toNat index.toNat
      (t, { code := if stored = value.toNat then .ok else .okClamped, payload := paramPayload id index stored })

/-- The service of PARAM-GET (R175). -/
def serveParamGet (s : State) (id index : Byte) : State × Reply :=
  match paramCount id.toNat with
  | none => (s, refuse .refusedParam)
  | some n =>
    if n ≤ index.toNat then (s, refuse .refusedRange)
    else (s, { code := .ok, payload := paramPayload id index (getParam s id.toNat index.toNat) })

/-! ### ENTRY-READ (R67, R101) -/

/-- Page 2 of a station entry: the interlock record, all 0 when it is absent (R67, R166). -/
def interlockPage : Option Interlock → BitVec 64
  | none => 0
  | some r => f16 r.granted ++ f16 r.reserved ++ r.takeTag ++ f8 r.publications ++ (0 : BitVec 8)

/-- A page of a station entry, none above page 3 (R67, R166). -/
def Station.page (e : Station) (page : Nat) : Option (BitVec 64) :=
  match page with
  | 0 => some (f8 (e.state.code + 16 * e.group.val) ++ f8 e.age ++ f16 e.rating ++ f16 e.meas ++ f16 e.avail)
  | 1 => some (f16 e.applied ++ f16 (e.park.getD 0) ++
      f8 (flagAt 0 e.park.isSome + flagAt 1 e.interlock.isSome + flagAt 2 e.ready) ++ (0 : BitVec 24))
  | 2 => some (interlockPage e.interlock)
  | 3 => some (e.statuses ++ e.holding.zeroExtend 8 ++ f8 e.overshootRun ++ f8 e.staleDuration ++ (0 : BitVec 32))
  | _ => none

/-- An ENTRY-READ answer: the page, or REFUSED(RANGE) where there is none. -/
def pageReply (s : State) : Option (BitVec 64) → State × Reply
  | some x => (s, { code := .ok, payload := x })
  | none => (s, refuse .refusedRange)

/-- The service of ENTRY-READ on a station port: the port's own station (R67). -/
def serveEntryReadStation (s : State) (i : StationId) (page : Byte) : State × Reply :=
  pageReply s ((s.station i).page page.toNat)

/-- The service of ENTRY-READ on the supervisor port: 0 to 9 a station, 10 the storage record (R67, R101). -/
def serveEntryReadSupervisor (s : State) (number page : Byte) : State × Reply :=
  match index? 10 number.toNat with
  | some i => pageReply s ((s.station i).page page.toNat)
  | none =>
    if number.toNat = 10 then pageReply s (storagePage s page.toNat) else (s, refuse .refusedRange)

end Sys2Proof.Machine
end

