-- ==== Sys2Proof/Machine/Ports.lean ====
section
/-! DEFINITION. The link ports (chapter 10): serving a taken request, the port handlers, the request queues, frames
and PORT-RESET. -/

namespace Sys2Proof.Machine

/-! ### Serving a taken request (R172) -/

/-- What a served request leaves: the state, and the answer unless the request is held. -/
abbrev Served := State × Option Reply

/-- A request that is answered as it is taken (R169). -/
def answered (x : State × Reply) : Served := (x.1, some x.2)

/-- REFUSED(ROLE): a defined kind that the port's role does not list (R172). -/
def roleRefused (s : State) : Served := answered (s, refuse .refusedRole)

/-- A kind of the supervisor role alone (R166). -/
def supervisorOnly (p : Port) (s : State) (x : State × Reply) : Served :=
  if roleOf p = .supervisor then answered x else roleRefused s

/-- The block's answer to a request of a kind on a port: REFUSED(KIND), REFUSED(ROLE), or the owning block's
(R172, steps 2 to 4; roles as the layout table of R166 lists them). -/
def serveBody (s : State) (p : Port) (r : Request) : Served :=
  match r.body with
  | .undefined _ => answered (s, refuse .refusedKind)
  | .join =>
    match roleOf p with
    | .station i => answered (serveJoin s i)
    | .storage => answered (serveStorageJoin s)
    | .supervisor => roleRefused s
  | .leave =>
    match roleOf p with
    | .station i => answered (serveLeave s i)
    | .storage => answered (serveStorageLeave s)
    | .supervisor => roleRefused s
  | .telemetry meas avail =>
    match roleOf p with
    | .station i => answered (serveTelemetry s i meas avail)
    | .storage | .supervisor => roleRefused s
  | .ceilTake =>
    match roleOf p with
    | .station i => serveCeilTake s i r.tag
    | .storage | .supervisor => roleRefused s
  | .ceilApply echo =>
    match roleOf p with
    | .station i => answered (serveCeilApply s i echo)
    | .storage | .supervisor => roleRefused s
  | .storTel meas soc bdis bchg =>
    match roleOf p with
    | .storage => answered (serveStorTel s meas soc bdis bchg)
    | .station _ | .supervisor => roleRefused s
  | .dispTake =>
    match roleOf p with
    | .storage => serveDispTake s r.tag
    | .station _ | .supervisor => roleRefused s
  | .entryRead number page =>
    match roleOf p with
    | .station i => answered (serveEntryReadStation s i page)
    | .supervisor => answered (serveEntryReadSupervisor s number page)
    | .storage => roleRefused s
  | .attnRead => answered (serveAttnRead s p)
  | .attnAck kind inst => answered (serveAttnAck s p kind inst)
  | .paramSet id index value => supervisorOnly p s (serveParamSet s id index value)
  | .paramGet id index => supervisorOnly p s (serveParamGet s id index)
  | .engStart => supervisorOnly p s (serveEngStart s)
  | .engHalt => supervisorOnly p s (serveEngHalt s)
  | .meter value tag => supervisorOnly p s (serveMeter s value tag)
  | .park station ceiling => supervisorOnly p s (servePark s station ceiling)
  | .unpark station => supervisorOnly p s (serveUnpark s station)
  | .faultClear station => supervisorOnly p s (serveFaultClearNamed s station)
  | .freezeRelease scope => supervisorOnly p s (serveFreezeRelease s scope)
  | .plantRead page => supervisorOnly p s (servePlantRead s page)
  | .histRead age => supervisorOnly p s (serveHistRead s age)
  | .statRead page => supervisorOnly p s (serveStatRead s page)
  | .statCtrl action => supervisorOnly p s (serveStatCtrl s action)
  | .captRead index => supervisorOnly p s (serveCaptRead s index)
  | .captRelease => supervisorOnly p s (serveCaptRelease s)

/-- Step 1 of R172: on a station port with an open interlock, the interlock ends first under R74. -/
def State.takingEnds (s : State) (p : Port) (b : Body) : State :=
  match roleOf p with
  | .station i => s.endAtTaking i b
  | .storage | .supervisor => s

/-- A taken request served (R172): its answer joins the reply queue, or it is held and the handler is BUSY (R169). -/
def State.serve (s : State) (p : Port) (r : Request) : State :=
  match serveBody (s.takingEnds p r.body) p r with
  | (t, some x) => t.pushAnswer p { kind := r.body.kind, tag := r.tag, code := x.code, payload := x.payload }
  | (t, none) => t.updPort p fun x => { x with handler := .busy }

/-! ### The port handler (R169, R170) -/

/-- How many answers a reply queue holds at most (R168). -/
def replyRoom : Nat := 4

/-- Whether the handler of a port takes a request now (R169): it is IDLE, its request queue is not empty, and its
reply queue holds fewer than 4 answers. -/
def State.canTake (s : State) (p : Port) : Bool :=
  let x := s.port p
  x.handler == .idle && !x.requests.isEmpty && decide (x.replies.length < replyRoom)

/-- Whether an interlock is open on a port; never on ports 10 and 11 (R165). -/
def State.locked (s : State) (p : Port) : Bool :=
  match roleOf p with
  | .station i => (s.station i).interlock.isSome
  | .storage | .supervisor => false

/-- Whether a kind is on the URGENT list (R171). -/
def Params.isUrgent (x : Params) (kind : Byte) : Bool :=
  (List.finRange 8).any fun n => look x.urgent n == some kind

/-- The place in the queue of the frame the handler takes (R170): the oldest while an interlock is open, else the
oldest urgent one, else the oldest. -/
def State.chosen (s : State) (p : Port) : Nat :=
  if s.locked p then 0
  else ((s.port p).requests.findIdx? fun r => s.params.isUrgent r.body.kind).getD 0

/-- The handler of a port takes a request and serves it, as one event (R169, R172). -/
def State.takeOne (s : State) (p : Port) : State :=
  let n := s.chosen p
  match (s.port p).requests[n]? with
  | none => s
  | some r => ((s.updPort p fun x => { x with requests := x.requests.eraseIdx n }).serve p r).endEvent

/-- The handlers take what they can, one request at a time, at most `fuel` of them. Where several ports can take at
the same instant, either order is possible (R72, R80) and a free choice picks the next. -/
def State.pump : Nat → State → State
  | 0, s => s
  | fuel + 1, s =>
    match allPorts.filter s.canTake with
    | [] => s
    | [p] => (s.takeOne p).pump fuel
    | p :: q :: rest =>
      let ready := p :: q :: rest
      let (n, t) := s.choose ready.length
      (t.takeOne (ready.getD n p)).pump fuel

/-- How many requests stand in the twelve queues: no more can be taken in one event. -/
def State.queued (s : State) : Nat := (allPorts.map fun p => (s.port p).requests.length).sum

/-- The handlers take every request they can (R169). -/
def State.runHandlers (s : State) : State := s.pump s.queued

/-! ### The request queue (R168) -/

/-- A request half joins the back of its port's queue, or is dropped where the queue is full (R168). -/
def State.enqueue (s : State) (p : Port) (r : Request) : State :=
  let x := s.port p
  if x.requests.length < x.depth.frames then s.updPort p fun x => { x with requests := x.requests ++ [r] }
  else (s.updPort p fun x => { x with drop := true }).statEvent .drop 0 p

/-- Whether a port's request queue has room (R168). -/
def State.hasRoom (s : State) (p : Port) : Bool := decide ((s.port p).requests.length < (s.port p).depth.frames)

/-- A request that has passed the checks of its frame reaches its port (step 5 of R167): it joins the queue or is
dropped, and the handlers take what they can. -/
def State.arrive (s : State) (p : Port) (r : Request) : State := (s.enqueue p r).endEvent.runHandlers

/-- The request rows of the command table: an event in which a request of their kind reaches its port. -/
def State.request (s : State) (p : Port) (r : Request) : State := s.nextEvent.arrive p r

/-! ### PORT-RESET (R173) -/

/-- The part of PORT-RESET that belongs to the blocks behind a port: held take, interlock and entry (R86, R68,
R100). -/
def State.resetBehind (s : State) (p : Port) : State :=
  match roleOf p with
  | .station i => (s.dropHeldTake i).resetEntry i
  | .storage => s.resetStorage
  | .supervisor => s

/-- The port's own state after PORT-RESET: queues empty, handler IDLE, flags clear (R173, R174). -/
def PortState.cleared (x : PortState) : PortState :=
  { x with requests := [], replies := [], handler := .idle, drop := false, ferr := false }

/-- The pending set of a port emptied (R162, R173). -/
def State.emptySet (s : State) (p : Port) : State :=
  s.setRouter { s.router with sets := put s.router.sets p PendingSet.empty }

/-- The parts of the completion of a PORT-RESET frame: the two filters' tests (R148), the reset of the port and of what
stands behind it, and the emptying of its pending set (R173). -/
inductive ResetPart where
  | filter (n : Fin 2)
  | clears
  | empties
  deriving DecidableEq, Repr

/-- One part of the completion of a PORT-RESET frame with a tag on a port. -/
def State.resetPart (s : State) (p : Port) (tag : Byte) : ResetPart → State
  | .filter n => s.filterOne p portResetKind tag n
  | .clears => (s.updPort p PortState.cleared).resetBehind p
  | .empties => s.emptySet p

/-- A PORT-RESET frame with a tag on a port (R148, R173). The filters' events, and the reset with its INTERLOCK-END, are
taken in any order (R142); a firing of STATS-FREEZE that one of the filters' events causes can so come before the
emptying of the pending set or after it (log entry 26). -/
def State.portReset (s : State) (p : Port) (tag : Byte) : State :=
  s.together (fun t x => t.resetPart p tag x) [[.filter 0], [.filter 1], [.clears, .empties]]

/-! ### Frames (R163 to R167) -/

/-- The status byte of a port at this instant (R165). -/
def State.statusOf (s : State) (p : Port) : Byte :=
  statusByte (s.attentionLine p) (s.locked p) (s.port p).drop (s.port p).ferr s.published.collapsed s.published.plant

/-- The answer half a frame begun now carries (R164). -/
def State.answerHalf (s : State) (p : Port) : AnswerHalf :=
  AnswerHalf.make (s.statusOf p) (s.port p).replies.head?

/-- Select asserted (R164): a frame begins and its answer half is fixed. A port in a frame, or one that waits for
select to be released, recognises no new frame. -/
def State.beginFrame (s : State) (p : Port) : State :=
  match (s.port p).link with
  | .idle => s.nextEvent.updPort p fun x => { x with link := .inFrame (s.answerHalf p) }
  | .inFrame _ | .awaitRelease => s

/-- The end of a complete frame for the answer half it carried (R164, R165): the carried answer leaves the reply
queue and the flags its status byte showed set are cleared. -/
def PortState.delivered (h : AnswerHalf) (x : PortState) : PortState :=
  { x with
    replies := if h.answer.isSome then x.replies.tail else x.replies
    drop := x.drop && !showsDrop h.status
    ferr := x.ferr && !showsFerr h.status
    link := .idle }

/-- FERR set (R163, R167). -/
def State.setFerr (s : State) (p : Port) : State := s.updPort p fun x => { x with ferr := true }

/-- Steps 2 to 5 of R167 and the filters' test of R148, which is made at the frame's arrival and so before its request
can be taken (log entry 28). -/
def State.judgeHalf (s : State) (p : Port) (half : BitVec 112) : State :=
  if crc16 (halfMessage half) != halfCrc half then (s.setFerr p).statEvent .crcError 0 p
  else
    let kind := halfKind half
    let tag := halfTag half
    if kind = idleKind then s.filterFrame p kind tag
    else if kind = portResetKind then s.portReset p tag
    else if s.hasRoom p then (s.filterFrame p kind tag).enqueue p (Request.ofHalf half)
    else s.enqueue p (Request.ofHalf half)

/-- The completion of a frame whose answer half was `h` (R167): delivery, which may let the handler take (R169), then
the judgement of the request half, which may let it take again. -/
def State.completeFrame (s : State) (p : Port) (h : AnswerHalf) (half : BitVec 112) : State :=
  (((s.nextEvent.updPort p (PortState.delivered h)).runHandlers).judgeHalf p half).endEvent.runHandlers

/-- A frame of wrong length (R163): the request half is discarded, FERR is set, FRAME-ERROR counted, and the answer
stays queued. -/
def State.breakFrame (s : State) (p : Port) : State :=
  ((s.nextEvent.updPort p fun x => { x with ferr := true, link := .idle }).statEvent .frameError 0 p).endEvent

/-- Select released on a port that waited for it after a power-on: the port recognises frames again (R179). -/
def State.releaseLink (s : State) (p : Port) : State := s.nextEvent.updPort p fun x => { x with link := .idle }

end Sys2Proof.Machine
end

