-- ==== Sys2Proof/Machine/LinkCommands.lean ====
section
/-! DEFINITION. The meanings of the events: power-on, frames, the timer's expiry and a run's publication. -/

namespace Sys2Proof.Machine

/-- POWER_ON (R179): every block in its power-on state; a port whose select is asserted waits for its release. The
count of free choices taken goes on. -/
def execPowerOn (selected : BitVec 12) (s : State) : Host.Outcome State Fault Refusal :=
  .next { State.reset with
    ports := tabulate fun p : Port =>
      { PortState.reset with link := if selected.getLsbD p.val then .awaitRelease else .idle }
    choices := s.choices
    pending := s.pending }

/-- FRAME_START (R164). -/
def execFrameStart (p : Port) (s : State) : Host.Outcome State Fault Refusal := .next (s.beginFrame p)

/-- FRAME_COMPLETE (R167). A port that waits for select to be released received no frame (R179). A completion with no
frame begun stands for a frame begun at the same instant (log entry 5). -/
def execFrameComplete (p : Port) (half : BitVec 112) (s : State) : Host.Outcome State Fault Refusal :=
  match (s.port p).link with
  | .inFrame h => .next (s.completeFrame p h half)
  | .idle => .next (s.completeFrame p (s.answerHalf p) half)
  | .awaitRelease => .next (s.releaseLink p)

/-- FRAMING_ERROR (R163). -/
def execFramingError (p : Port) (s : State) : Host.Outcome State Fault Refusal :=
  match (s.port p).link with
  | .inFrame _ | .idle => .next (s.breakFrame p)
  | .awaitRelease => .next (s.releaseLink p)

/-- TIMER_EXPIRY (R4): in RUNNING a run begins. The timer is stopped while HALTED and no run is in flight at an
expiry (R1, R7); an event not listed for a run state leaves it unchanged (R3). -/
def execTimerExpiry (s : State) : Host.Outcome State Fault Refusal :=
  match s.engine.run with
  | .running => .next s.startRun.endEvent
  | .halted | .inFlight _ => .next s

/-- PUBLICATION (R6): the run in flight publishes, then the handlers its held takes freed may take (R169). With no
run in flight the event is not listed and changes nothing (R3). -/
def execPublication (s : State) : Host.Outcome State Fault Refusal :=
  match s.engine.run with
  | .inFlight run => .next (s.publish (resultOf run s.engine.queues s.published)).endEvent.runHandlers
  | .halted | .running => .next s

end Sys2Proof.Machine
end

