-- ==== Sys2Proof/Machine/StationCommands.lean ====
section
/-! DEFINITION. The meanings of the requests of the station and storage roles and of those of all roles, and of a kind that is not defined. Each is the
request half reaching its port (`State.request`): it is queued or dropped there, taken by the handler and served
(R168 to R172) by the block's own service. -/

namespace Sys2Proof.Machine

/-- UNDEFINED_KIND (R172). -/
def execUndefinedKind (p : Port) (tag : Byte) (kind : Byte) (s : State) : Host.Outcome State Fault Refusal :=
  .next (s.request p { tag := tag, body := .undefined kind })

/-- JOIN (R53, R93). -/
def execJoin (p : Port) (tag : Byte) (s : State) : Host.Outcome State Fault Refusal :=
  .next (s.request p { tag := tag, body := .join })

/-- LEAVE (R54, R94). -/
def execLeave (p : Port) (tag : Byte) (s : State) : Host.Outcome State Fault Refusal :=
  .next (s.request p { tag := tag, body := .leave })

/-- TELEMETRY (R55 to R57). -/
def execTelemetry (p : Port) (tag : Byte) (meas avail : BitVec 16) (s : State) : Host.Outcome State Fault Refusal :=
  .next (s.request p { tag := tag, body := .telemetry meas avail })

/-- CEIL-TAKE (R75 to R80). -/
def execCeilTake (p : Port) (tag : Byte) (s : State) : Host.Outcome State Fault Refusal :=
  .next (s.request p { tag := tag, body := .ceilTake })

/-- CEIL-APPLY (R81 to R83). -/
def execCeilApply (p : Port) (tag : Byte) (echo : BitVec 16) (s : State) : Host.Outcome State Fault Refusal :=
  .next (s.request p { tag := tag, body := .ceilApply echo })

/-- STOR-TEL (R95, R96). -/
def execStorTel (p : Port) (tag : Byte) (meas : BitVec 32) (soc bdis bchg : BitVec 16) (s : State) :
    Host.Outcome State Fault Refusal :=
  .next (s.request p { tag := tag, body := .storTel meas soc bdis bchg })

/-- DISP-TAKE (R98, R99). -/
def execDispTake (p : Port) (tag : Byte) (s : State) : Host.Outcome State Fault Refusal :=
  .next (s.request p { tag := tag, body := .dispTake })

/-- ENTRY-READ (R67, R101). -/
def execEntryRead (p : Port) (tag : Byte) (number page : Byte) (s : State) : Host.Outcome State Fault Refusal :=
  .next (s.request p { tag := tag, body := .entryRead number page })

/-- ATTN-READ (R161). -/
def execAttnRead (p : Port) (tag : Byte) (s : State) : Host.Outcome State Fault Refusal :=
  .next (s.request p { tag := tag, body := .attnRead })

/-- ATTN-ACK (R160). -/
def execAttnAck (p : Port) (tag : Byte) (kind inst : Byte) (s : State) : Host.Outcome State Fault Refusal :=
  .next (s.request p { tag := tag, body := .attnAck kind inst })

end Sys2Proof.Machine
end

