-- ==== Sys2Proof/Machine/StatisticsCommands.lean ====
section
/-! DEFINITION. The meanings of the STAT-CTRL actions. Each is the
request half reaching its port (`State.request`): it is queued or dropped there, taken by the handler and served
(R168 to R172) by the block's own service. -/

namespace Sys2Proof.Machine

/-- STAT-CTRL FREEZE (R145). -/
def execFreeze (p : Port) (tag : Byte) (s : State) : Host.Outcome State Fault Refusal :=
  .next (s.request p { tag := tag, body := .statCtrl .freeze })

/-- STAT-CTRL UNFREEZE (R145). -/
def execUnfreeze (p : Port) (tag : Byte) (s : State) : Host.Outcome State Fault Refusal :=
  .next (s.request p { tag := tag, body := .statCtrl .unfreeze })

/-- STAT-CTRL CLEAR-ALL (R151). -/
def execClearAll (p : Port) (tag : Byte) (s : State) : Host.Outcome State Fault Refusal :=
  .next (s.request p { tag := tag, body := .statCtrl .clearAll })

/-- STAT-CTRL CLEAR-OVF (R151). -/
def execClearOvf (p : Port) (tag : Byte) (counters : Byte) (s : State) : Host.Outcome State Fault Refusal :=
  .next (s.request p { tag := tag, body := .statCtrl (.clearOvf counters) })

/-- STAT-CTRL PRESET (R151). -/
def execPreset (p : Port) (tag : Byte) (counter : Byte) (value : BitVec 40) (s : State) :
    Host.Outcome State Fault Refusal :=
  .next (s.request p { tag := tag, body := .statCtrl (.preset counter value) })

/-- STAT-CTRL CONFIGURE (R150). -/
def execConfigure (p : Port) (tag : Byte) (counter : Byte) (record : BitVec 64) (s : State) :
    Host.Outcome State Fault Refusal :=
  .next (s.request p { tag := tag, body := .statCtrl (.configure counter record) })

/-- STAT-CTRL FILTER (R148). -/
def execFilter (p : Port) (tag : Byte) (which : Byte) (record : BitVec 40) (s : State) :
    Host.Outcome State Fault Refusal :=
  .next (s.request p { tag := tag, body := .statCtrl (.filter which record) })

/-- STAT-CTRL FREEZE-ON-HARD (R144). -/
def execFreezeOnHard (p : Port) (tag : Byte) (value : Byte) (s : State) : Host.Outcome State Fault Refusal :=
  .next (s.request p { tag := tag, body := .statCtrl (.freezeOnHard value) })

/-- STAT-CTRL with an action code that names none of the eight (R149). -/
def execUndefinedAction (p : Port) (tag : Byte) (action : Byte) (s : State) : Host.Outcome State Fault Refusal :=
  .next (s.request p { tag := tag, body := .statCtrl (.undefined action) })

end Sys2Proof.Machine
end

