-- ==== Sys2Proof/Machine/SupervisorCommands.lean ====
section
/-! DEFINITION. The meanings of the supervisor requests but for the STAT-CTRL actions. Each is the
request half reaching its port (`State.request`): it is queued or dropped there, taken by the handler and served
(R168 to R172) by the block's own service. -/

namespace Sys2Proof.Machine

/-- PARAM-SET (R175, R176). -/
def execParamSet (p : Port) (tag : Byte) (id index : Byte) (value : BitVec 32) (s : State) :
    Host.Outcome State Fault Refusal :=
  .next (s.request p { tag := tag, body := .paramSet id index value })

/-- PARAM-SET of STATION_RATING, identifier 17 (R65). -/
def execStationRating (p : Port) (tag : Byte) (index : Byte) (value : BitVec 32) (s : State) :
    Host.Outcome State Fault Refusal :=
  .next (s.request p { tag := tag, body := .paramSet 17 index value })

/-- PARAM-SET of STATION_GROUP, identifier 18 (R66). -/
def execStationGroup (p : Port) (tag : Byte) (index : Byte) (value : BitVec 32) (s : State) :
    Host.Outcome State Fault Refusal :=
  .next (s.request p { tag := tag, body := .paramSet 18 index value })

/-- PARAM-SET of MON_MODE, identifier 26 (R119). -/
def execMonMode (p : Port) (tag : Byte) (index : Byte) (value : BitVec 32) (s : State) :
    Host.Outcome State Fault Refusal :=
  .next (s.request p { tag := tag, body := .paramSet 26 index value })

/-- PARAM-SET of QUEUE_DEPTH, identifier 29 (R168). -/
def execQueueDepth (p : Port) (tag : Byte) (index : Byte) (value : BitVec 32) (s : State) :
    Host.Outcome State Fault Refusal :=
  .next (s.request p { tag := tag, body := .paramSet 29 index value })

/-- PARAM-SET of URGENT, identifier 30 (R171). -/
def execUrgent (p : Port) (tag : Byte) (index : Byte) (value : BitVec 32) (s : State) :
    Host.Outcome State Fault Refusal :=
  .next (s.request p { tag := tag, body := .paramSet 30 index value })

/-- PARAM-SET of ROUTE, identifier 31 (R155). -/
def execRoute (p : Port) (tag : Byte) (index : Byte) (value : BitVec 32) (s : State) :
    Host.Outcome State Fault Refusal :=
  .next (s.request p { tag := tag, body := .paramSet 31 index value })

/-- PARAM-SET of RAISE_STEP, identifier 28 (R88). -/
def execRaiseStep (p : Port) (tag : Byte) (index : Byte) (value : BitVec 32) (s : State) :
    Host.Outcome State Fault Refusal :=
  .next (s.request p { tag := tag, body := .paramSet 28 index value })

/-- PARAM-GET (R175). -/
def execParamGet (p : Port) (tag : Byte) (id index : Byte) (s : State) : Host.Outcome State Fault Refusal :=
  .next (s.request p { tag := tag, body := .paramGet id index })

/-- ENG-START (R3, R10). -/
def execEngStart (p : Port) (tag : Byte) (s : State) : Host.Outcome State Fault Refusal :=
  .next (s.request p { tag := tag, body := .engStart })

/-- ENG-HALT (R3, R8, R9). -/
def execEngHalt (p : Port) (tag : Byte) (s : State) : Host.Outcome State Fault Refusal :=
  .next (s.request p { tag := tag, body := .engHalt })

/-- METER (R11). -/
def execMeter (p : Port) (tag : Byte) (value : BitVec 32) (intervalTag : BitVec 16) (s : State) :
    Host.Outcome State Fault Refusal :=
  .next (s.request p { tag := tag, body := .meter value intervalTag })

/-- PARK (R63). -/
def execPark (p : Port) (tag : Byte) (station : Byte) (ceiling : BitVec 16) (s : State) :
    Host.Outcome State Fault Refusal :=
  .next (s.request p { tag := tag, body := .park station ceiling })

/-- UNPARK (R64). -/
def execUnpark (p : Port) (tag : Byte) (station : Byte) (s : State) : Host.Outcome State Fault Refusal :=
  .next (s.request p { tag := tag, body := .unpark station })

/-- FAULT-CLEAR of a station (R116). -/
def execFaultClear (p : Port) (tag : Byte) (station : Byte) (s : State) : Host.Outcome State Fault Refusal :=
  .next (s.request p { tag := tag, body := .faultClear station })

/-- FAULT-CLEAR of the plant, station byte 255 (R123). -/
def execFaultClearPlant (p : Port) (tag : Byte) (s : State) : Host.Outcome State Fault Refusal :=
  .next (s.request p { tag := tag, body := .faultClear 255 })

/-- FREEZE-RELEASE (R128). -/
def execFreezeRelease (p : Port) (tag : Byte) (scope : Byte) (s : State) : Host.Outcome State Fault Refusal :=
  .next (s.request p { tag := tag, body := .freezeRelease scope })

/-- PLANT-READ (R178). -/
def execPlantRead (p : Port) (tag : Byte) (page : Byte) (s : State) : Host.Outcome State Fault Refusal :=
  .next (s.request p { tag := tag, body := .plantRead page })

/-- HIST-READ (R17). -/
def execHistRead (p : Port) (tag : Byte) (age : BitVec 16) (s : State) : Host.Outcome State Fault Refusal :=
  .next (s.request p { tag := tag, body := .histRead age })

/-- STAT-READ (R152). -/
def execStatRead (p : Port) (tag : Byte) (page : Byte) (s : State) : Host.Outcome State Fault Refusal :=
  .next (s.request p { tag := tag, body := .statRead page })

/-- CAPT-READ (R133). -/
def execCaptRead (p : Port) (tag : Byte) (index : Byte) (s : State) : Host.Outcome State Fault Refusal :=
  .next (s.request p { tag := tag, body := .captRead index })

/-- CAPT-RELEASE (R132). -/
def execCaptRelease (p : Port) (tag : Byte) (s : State) : Host.Outcome State Fault Refusal :=
  .next (s.request p { tag := tag, body := .captRelease })

end Sys2Proof.Machine
end

