-- ==== Sys2Proof/Machine/Dispatch.lean ====
section
/-! DEFINITION. The meaning of every command: one arm per constructor of Instr. -/

namespace Sys2Proof.Machine

/-- The effect of a command on everything but the queue of waiting commands. -/
def exec (i : Instr) (s : State) : Host.Outcome State Fault Refusal :=
  match i with
  | .powerOn selected => Sys2Proof.Machine.execPowerOn selected s
  | .frameStart p => Sys2Proof.Machine.execFrameStart p s
  | .frameComplete p half => Sys2Proof.Machine.execFrameComplete p half s
  | .framingError p => Sys2Proof.Machine.execFramingError p s
  | .undefinedKind p tag kind => Sys2Proof.Machine.execUndefinedKind p tag kind s
  | .join p tag => Sys2Proof.Machine.execJoin p tag s
  | .leave p tag => Sys2Proof.Machine.execLeave p tag s
  | .telemetry p tag meas avail => Sys2Proof.Machine.execTelemetry p tag meas avail s
  | .ceilTake p tag => Sys2Proof.Machine.execCeilTake p tag s
  | .ceilApply p tag echo => Sys2Proof.Machine.execCeilApply p tag echo s
  | .storTel p tag meas soc bdis bchg => Sys2Proof.Machine.execStorTel p tag meas soc bdis bchg s
  | .dispTake p tag => Sys2Proof.Machine.execDispTake p tag s
  | .entryRead p tag number page => Sys2Proof.Machine.execEntryRead p tag number page s
  | .attnRead p tag => Sys2Proof.Machine.execAttnRead p tag s
  | .attnAck p tag kind inst => Sys2Proof.Machine.execAttnAck p tag kind inst s
  | .paramSet p tag id index value => Sys2Proof.Machine.execParamSet p tag id index value s
  | .stationRating p tag index value => Sys2Proof.Machine.execStationRating p tag index value s
  | .stationGroup p tag index value => Sys2Proof.Machine.execStationGroup p tag index value s
  | .monMode p tag index value => Sys2Proof.Machine.execMonMode p tag index value s
  | .queueDepth p tag index value => Sys2Proof.Machine.execQueueDepth p tag index value s
  | .urgent p tag index value => Sys2Proof.Machine.execUrgent p tag index value s
  | .route p tag index value => Sys2Proof.Machine.execRoute p tag index value s
  | .raiseStep p tag index value => Sys2Proof.Machine.execRaiseStep p tag index value s
  | .paramGet p tag id index => Sys2Proof.Machine.execParamGet p tag id index s
  | .engStart p tag => Sys2Proof.Machine.execEngStart p tag s
  | .engHalt p tag => Sys2Proof.Machine.execEngHalt p tag s
  | .meter p tag value intervalTag => Sys2Proof.Machine.execMeter p tag value intervalTag s
  | .park p tag station ceiling => Sys2Proof.Machine.execPark p tag station ceiling s
  | .unpark p tag station => Sys2Proof.Machine.execUnpark p tag station s
  | .faultClear p tag station => Sys2Proof.Machine.execFaultClear p tag station s
  | .faultClearPlant p tag => Sys2Proof.Machine.execFaultClearPlant p tag s
  | .freezeRelease p tag scope => Sys2Proof.Machine.execFreezeRelease p tag scope s
  | .plantRead p tag page => Sys2Proof.Machine.execPlantRead p tag page s
  | .histRead p tag age => Sys2Proof.Machine.execHistRead p tag age s
  | .statRead p tag page => Sys2Proof.Machine.execStatRead p tag page s
  | .freeze p tag => Sys2Proof.Machine.execFreeze p tag s
  | .unfreeze p tag => Sys2Proof.Machine.execUnfreeze p tag s
  | .clearAll p tag => Sys2Proof.Machine.execClearAll p tag s
  | .clearOvf p tag counters => Sys2Proof.Machine.execClearOvf p tag counters s
  | .preset p tag counter value => Sys2Proof.Machine.execPreset p tag counter value s
  | .configure p tag counter record => Sys2Proof.Machine.execConfigure p tag counter record s
  | .filter p tag which record => Sys2Proof.Machine.execFilter p tag which record s
  | .freezeOnHard p tag value => Sys2Proof.Machine.execFreezeOnHard p tag value s
  | .captRead p tag index => Sys2Proof.Machine.execCaptRead p tag index s
  | .captRelease p tag => Sys2Proof.Machine.execCaptRelease p tag s
  | .timerExpiry => Sys2Proof.Machine.execTimerExpiry s
  | .publication => Sys2Proof.Machine.execPublication s
  | .undefinedAction p tag action => Sys2Proof.Machine.execUndefinedAction p tag action s

end Sys2Proof.Machine
end

