-- ==== Sys2Proof/Safety.lean ====
section
/-! DEFINITION. What the statements are about: the states in which a request is served at once, the requests the
command rows carry, and the laws of the state (the properties that hold at all times). -/

namespace Sys2Proof.Machine

/-! ### Commands as requests -/

/-- The request a row carries and the port it arrives on; none for the six events. -/
def requestOf : Instr → Option (Port × Request)
  | .powerOn _ | .frameStart _ | .frameComplete _ _ | .framingError _ | .timerExpiry | .publication => none
  | .undefinedKind p tag kind => some (p, { tag := tag, body := .undefined kind })
  | .join p tag => some (p, { tag := tag, body := .join })
  | .leave p tag => some (p, { tag := tag, body := .leave })
  | .telemetry p tag meas avail => some (p, { tag := tag, body := .telemetry meas avail })
  | .ceilTake p tag => some (p, { tag := tag, body := .ceilTake })
  | .ceilApply p tag echo => some (p, { tag := tag, body := .ceilApply echo })
  | .storTel p tag meas soc bdis bchg => some (p, { tag := tag, body := .storTel meas soc bdis bchg })
  | .dispTake p tag => some (p, { tag := tag, body := .dispTake })
  | .entryRead p tag number page => some (p, { tag := tag, body := .entryRead number page })
  | .attnRead p tag => some (p, { tag := tag, body := .attnRead })
  | .attnAck p tag kind inst => some (p, { tag := tag, body := .attnAck kind inst })
  | .paramSet p tag id index value => some (p, { tag := tag, body := .paramSet id index value })
  | .stationRating p tag index value => some (p, { tag := tag, body := .paramSet 17 index value })
  | .stationGroup p tag index value => some (p, { tag := tag, body := .paramSet 18 index value })
  | .monMode p tag index value => some (p, { tag := tag, body := .paramSet 26 index value })
  | .queueDepth p tag index value => some (p, { tag := tag, body := .paramSet 29 index value })
  | .urgent p tag index value => some (p, { tag := tag, body := .paramSet 30 index value })
  | .route p tag index value => some (p, { tag := tag, body := .paramSet 31 index value })
  | .raiseStep p tag index value => some (p, { tag := tag, body := .paramSet 28 index value })
  | .paramGet p tag id index => some (p, { tag := tag, body := .paramGet id index })
  | .engStart p tag => some (p, { tag := tag, body := .engStart })
  | .engHalt p tag => some (p, { tag := tag, body := .engHalt })
  | .meter p tag value intervalTag => some (p, { tag := tag, body := .meter value intervalTag })
  | .park p tag station ceiling => some (p, { tag := tag, body := .park station ceiling })
  | .unpark p tag station => some (p, { tag := tag, body := .unpark station })
  | .faultClear p tag station => some (p, { tag := tag, body := .faultClear station })
  | .faultClearPlant p tag => some (p, { tag := tag, body := .faultClear 255 })
  | .freezeRelease p tag scope => some (p, { tag := tag, body := .freezeRelease scope })
  | .plantRead p tag page => some (p, { tag := tag, body := .plantRead page })
  | .histRead p tag age => some (p, { tag := tag, body := .histRead age })
  | .statRead p tag page => some (p, { tag := tag, body := .statRead page })
  | .freeze p tag => some (p, { tag := tag, body := .statCtrl .freeze })
  | .unfreeze p tag => some (p, { tag := tag, body := .statCtrl .unfreeze })
  | .clearAll p tag => some (p, { tag := tag, body := .statCtrl .clearAll })
  | .clearOvf p tag counters => some (p, { tag := tag, body := .statCtrl (.clearOvf counters) })
  | .preset p tag counter value => some (p, { tag := tag, body := .statCtrl (.preset counter value) })
  | .configure p tag counter record => some (p, { tag := tag, body := .statCtrl (.configure counter record) })
  | .filter p tag which record => some (p, { tag := tag, body := .statCtrl (.filter which record) })
  | .freezeOnHard p tag value => some (p, { tag := tag, body := .statCtrl (.freezeOnHard value) })
  | .captRead p tag index => some (p, { tag := tag, body := .captRead index })
  | .captRelease p tag => some (p, { tag := tag, body := .captRelease })
  | .undefinedAction p tag action => some (p, { tag := tag, body := .statCtrl (.undefined action) })

/-- The request a command brings to a port, as a row or as a frame that passes the CRC check; none for the others. -/
def incoming : Instr → Option (Port × Request)
  | .frameComplete p half => some (p, Request.ofHalf half)
  | c => requestOf c

/-- Whether a request with a property waits in a queue or comes with the command (only such a request can be served
while the command is executed). -/
def State.mayServe (s : State) (c : Instr) (want : Body → Bool) : Bool :=
  (allPorts.any fun p => (s.port p).requests.any fun r => want r.body) ||
    (match incoming c with
    | some (_, r) => want r.body
    | none => false)

/-! ### The taking of a request -/

/-- The handler of port p can take a request (R169): it is IDLE, its queue is not empty and its replies have room. -/
structure State.AbleToTake (s : State) (p : Port) : Prop where
  idle : (s.port p).handler = .idle
  waiting : (s.port p).requests ≠ []
  room : (s.port p).replies.length < 4

/-- The frame `w` the handler of port p takes when it takes one, between the frames before and behind it (R170): the
oldest frame while an interlock is open on the port, else the oldest urgent one, else the oldest. -/
structure State.Chooses (s : State) (p : Port) (older : List Request) (w : Request) (newer : List Request) : Prop where
  place : (s.port p).requests = older ++ w :: newer
  paired : (∃ i, p = stationPort i ∧ (s.station i).interlock.isSome = true) → older = []
  urgent : (∀ i, p = stationPort i → (s.station i).interlock = none) →
    ((∃ n, look s.params.urgent n = some w.body.kind) ∧
      ∀ x ∈ older, ∀ n, look s.params.urgent n ≠ some x.body.kind) ∨
    (older = [] ∧ ∀ x ∈ w :: newer, ∀ n, look s.params.urgent n ≠ some x.body.kind)

/-- The state in which the taken frame has left the queue, been served, and its event has ended (R169, R172). -/
def State.taking (s : State) (p : Port) (older : List Request) (w : Request) (newer : List Request) : State :=
  ((s.updPort p fun x => { x with requests := older ++ newer }).serve p w).endEvent

/-! ### The states in which a request is served at once -/

/-- Between events: no handler can take (R169), and the pending sets hold every entry in its place (R157). -/
structure State.Quiet (s : State) : Prop where
  settled : ∀ p, (look s.router.sets p).fresh = []
  taken : ∀ p, s.canTake p = false

/-- Port p serves the next request that reaches it at once (R169): its queue is empty, its handler is IDLE and its
reply queue has room. -/
structure State.Listening (s : State) (p : Port) : Prop where
  quiet : s.Quiet
  empty : (s.port p).requests = []
  idle : (s.port p).handler = .idle
  room : (s.port p).replies.length < replyRoom

/-- Port p serves the next request at once, and no interlock is open on it (R172, step 1). -/
structure State.Serves (s : State) (p : Port) : Prop where
  listening : s.Listening p
  unlocked : s.locked p = false

/-- The state with one answer more at the back of port p's reply queue (R169, R172), and no FAULT-CLEAR as the last
event (the model's own mark, log entry 24). -/
def State.replyOn (s : State) (p : Port) (kind tag : Byte) (code : AnswerCode) (payload : BitVec 64) : State :=
  State.pushAnswer { s with lastClear := none } p { kind := kind, tag := tag, code := code, payload := payload }

/-! ### Source events of the same instant -/

/-- A source event: its source, its magnitude and the port it names (R137). -/
structure SourceEvent where
  source : StatSource
  magnitude : Nat
  port : Port
  deriving DecidableEq, Repr

/-- Source events handed over one after the other. -/
def State.statEvents (s : State) (es : List SourceEvent) : State :=
  es.foldl (fun w e => w.statEvent e.source e.magnitude e.port) s

/-- `order` has the members of several lists, each list's in that list's order and the lists in any order between
them. -/
inductive Interleaves {α : Type} : List (List α) → List α → Prop where
  | done (ls : List (List α)) : ls.flatten = [] → Interleaves ls []
  | next (before after : List (List α)) (l : List α) (x : α) (order : List α) :
      Interleaves (before ++ l :: after) order → Interleaves (before ++ (x :: l) :: after) (x :: order)

/-- The statistics of `t` are those of `s` after source events of the same instant: each list's events in its order, the
lists in any order between them (R142). -/
def State.CountsTogether (s t : State) (lists : List (List SourceEvent)) : Prop :=
  ∃ order, Interleaves lists order ∧ t.stats = (s.statEvents order).stats

/-! ### What the statements say of a request, an entry and the router -/

/-- Whether the layout table of R166 lists a port's role for a defined kind: 0 to 9 station, 10 storage, 11
supervisor. -/
def Body.roleListed (b : Body) (p : Port) : Bool :=
  match b with
  | .undefined _ => true
  | .join | .leave => p.val ≤ 10
  | .telemetry _ _ | .ceilTake | .ceilApply _ => p.val ≤ 9
  | .storTel _ _ _ _ | .dispTake => p.val = 10
  | .entryRead _ _ => p.val ≠ 10
  | .attnRead | .attnAck _ _ => true
  | .paramSet _ _ _ | .paramGet _ _ | .engStart | .engHalt | .meter _ _ | .park _ _ | .unpark _ | .faultClear _
  | .freezeRelease _ | .plantRead _ | .histRead _ | .statRead _ | .statCtrl _ | .captRead _ | .captRelease =>
    p.val = 11

/-- Whether an entry becomes FAULTED when a monitor of a mode has its event (R51, R111). -/
def Station.wouldFault (e : Station) (mode : MonMode) : Bool :=
  (mode == .latched || mode == .cycle) && e.holding == 0 &&
    (e.state == .joining || e.state == .online || e.state == .stale)

/-- An entry after an event of a monitor in a mode that does not come from a report (R109 to R111), but for
raise-ready and an interlock still open. -/
def Station.afterEvent (e : Station) (mode : MonMode) (ev : MonEvent) : Station :=
  { e with
    statuses := if mode = .off then e.statuses else e.statuses ||| (1 <<< ev.code)
    holding := if mode = .latched ∨ mode = .cycle then e.holding ||| (1 <<< ev.monitor.code) else e.holding
    state := if e.wouldFault mode then .faulted else e.state
    staleDuration := if e.wouldFault mode && e.state == .stale then 0 else e.staleDuration }

/-- What the router does when a station's raise-ready flag goes from one value to another (R89). -/
def Router.readyChange (x : Router) (i : StationId) (before after : Bool) : Router :=
  if after && !before then (x.fire .raiseReady i false).settle
  else if before && !after then x.conditionEnded .raiseReady i
  else x

/-- In the set of port p, two routers hold the same entries of the pair (k, i), in the same order. -/
def Router.AgreesAt (x y : Router) (k : CauseKind) (i : StationId) (p : Port) : Prop :=
  (look x.sets p).all.filter (fun e => e.isFor k i) = (look y.sets p).all.filter (fun e => e.isFor k i)

/-- The router after n firings of a kind for a station. -/
def Router.fired (x : Router) (n : Nat) (k : CauseKind) (i : StationId) : Router :=
  (fun y : Router => y.fire k i false)^[n] x

/-- The router after an end report that is made when c holds. -/
def Router.endedIf (x : Router) (c : Bool) (k : CauseKind) (i : StationId) : Router :=
  if c then x.conditionEnded k i else x

/-- How many of the eight statuses are clear in one entry and set in the other. -/
def Station.newStatuses (before after : Station) : Nat :=
  ((List.finRange 8).filter fun n => !before.statuses.getLsbD n.val && after.statuses.getLsbD n.val).length

/-- What the set of port p shows, at the end of an event that clears no status, of the event's notices for station i
and for the Statistics Unit: STN-MONITOR has fired once for each status that went from clear to set (R112), STN-STALE
when the entry entered STALE (R59), its CLEAR entries are gone when it left STALE (R52, R61), and STATS-FREEZE has fired
when the unit became frozen (R145). -/
structure State.Notices (s t : State) (i : StationId) (p : Port) : Prop where
  monitor : t.router.AgreesAt (s.router.fired ((s.station i).newStatuses (t.station i)) .stnMonitor i) .stnMonitor i p
  stale : t.router.AgreesAt
    ((s.router.fired (if (s.station i).state ≠ .stale ∧ (t.station i).state = .stale then 1 else 0) .stnStale i).endedIf
      ((s.station i).state == .stale && (t.station i).state != .stale) .stnStale i) .stnStale i p
  freeze : t.router.AgreesAt
    (s.router.fired (if s.stats.frozen = false ∧ t.stats.frozen = true then 1 else 0) .statsFreeze 0) .statsFreeze 0 p

/-- The RAISE-READY entries of station i in the set of port p follow its flag (R89): a firing when it was set, an end
report when it was cleared. -/
def State.ReadyNotice (s t : State) (i : StationId) (p : Port) : Prop :=
  t.router.AgreesAt (s.router.readyChange i (s.station i).ready (t.station i).ready) .raiseReady i p

/-- Two routers with the same routing table and, but for the entries of the pairs that `may` names, the same pending
entries in the same order. -/
structure Router.DiffersOnly (x y : Router) (may : CauseKind → StationId → Bool) : Prop where
  routes : y.routes = x.routes
  others : ∀ p, (look y.sets p).entries.filter (fun e => !may e.kind e.inst) =
    (look x.sets p).entries.filter (fun e => !may e.kind e.inst)

/-- The pairs an event on one station can touch: RAISE-READY, STN-STALE and STN-MONITOR of station i, and
STATS-FREEZE, which an accounting step can fire (R89, R52, R112, R145). -/
def ownPairs (i : StationId) (k : CauseKind) (j : StationId) : Bool :=
  (k == .raiseReady && j == i) || (k == .stnStale && j == i) || (k == .stnMonitor && j == i) || k == .statsFreeze

/-! ### What the statements say of a publication -/

/-- An entry after the counting and the deadline of one publication (R84, R73, R109), but for raise-ready. -/
def Station.afterDeadline (e : Station) (x : Params) : Station :=
  match e.interlock with
  | none => e
  | some k =>
    if x.takeDeadline ≤ k.publications + 1 then
      ({ e with applied := max e.applied k.granted, interlock := none } : Station).afterEvent x.monInterlock
        .takeTimeout
    else { e with interlock := some { k with publications := k.publications + 1 } }

/-- The source events of the entry of station i at the deadline of one publication, in the order of R73 (R111). -/
def Station.deadlineEvents (e : Station) (x : Params) (i : StationId) : List SourceEvent :=
  match e.interlock with
  | none => []
  | some k =>
    if x.takeDeadline ≤ k.publications + 1 then
      ⟨.interlockEnd, k.granted - e.applied, stationPort i⟩ ::
        (if e.wouldFault x.monInterlock then [⟨.faultEntry, 0, stationPort i⟩] else [])
    else []

/-- What a take meets when it is answered from a record (R72, R75): the record, the freeze scopes and the entries. -/
structure TakeView where
  record : Published
  scopes : Vector Scope 5
  entries : Vector Station 10

/-- The offer a take for station i uses (R75); that a FIXED answer carries it too is the model's choice where R78 differs
(log entry 25). -/
def TakeView.offer (v : TakeView) (i : StationId) : Nat := min (look v.record.offers i) (look v.entries i).rating

/-- The headroom pool (R72). -/
def TakeView.pool (v : TakeView) : Int :=
  (v.record.allowance : Int) -
    (sumStations fun j => if look v.record.mask j then
      (look v.entries j).applied + ((look v.entries j).interlock.map Interlock.reserved).getD 0 else 0 : Nat)

/-- Whether station i or the plant is frozen (R126). -/
def TakeView.frozen (v : TakeView) (i : StationId) : Bool :=
  (look v.scopes (groupScope (look v.entries i).group)).frozen || (look v.scopes plantScope).frozen

/-- Whether a take for station i opens an interlock (R79). -/
def TakeView.opens (v : TakeView) (i : StationId) : Bool :=
  (look v.entries i).state == .online && look v.record.mask i

/-- The granted ceiling of a take that opens an interlock (R79, R80). -/
def TakeView.granted (v : TakeView) (i : StationId) : Nat :=
  let applied := (look v.entries i).applied
  if v.offer i ≤ applied then v.offer i
  else if v.frozen i then applied
  else applied + min (v.offer i - applied) v.pool.toNat

/-- The entries that the take of station i leaves, but for raise-ready (R71, R79). -/
def TakeView.answered (v : TakeView) (i : StationId) : TakeView :=
  if v.opens i then
    { v with
      entries := put v.entries i
        { look v.entries i with
          interlock := some { granted := v.granted i, reserved := v.granted i - (look v.entries i).applied,
                              takeTag := intervalTag v.record.number, publications := 0 } } }
  else v

/-- The answer to the take of station i while the engine is not HALTED (R75, R76, R78, R79, R80). The offer field of a
FIXED answer to an entry of the mask still PARKED with a lowered rating is the model's choice (log entry 25). -/
def TakeView.reply (v : TakeView) (x : Params) (i : StationId) : Reply :=
  let e := look v.entries i
  let fields (ceiling : Nat) : BitVec 64 :=
    f8 e.state.code ++ f16 ceiling ++ f16 (v.offer i) ++ intervalTag v.record.number ++ 0#8
  if e.state = .absent then { code := .refusedState, payload := 0 }
  else if v.opens i then
    { code := if v.offer i ≤ e.applied then .ok else if v.frozen i then .partialFrozen
        else if v.granted i = v.offer i then .ok else .partialPool
      payload := fields (v.granted i) }
  else
    { code := .fixed
      payload := fields (match e.state with
        | .faulted => min e.applied (e.rating * x.faultCap / 1000)
        | .parked => e.park.getD 0
        | .absent | .joining | .online | .stale => e.applied) }

/-- The source event of the take of station i (R79, R80). -/
def TakeView.events (v : TakeView) (i : StationId) : List SourceEvent :=
  let applied := (look v.entries i).applied
  if v.opens i = false ∨ v.offer i ≤ applied then []
  else if v.granted i = v.offer i then [⟨.raiseFull, v.granted i - applied, stationPort i⟩]
  else [⟨.raisePartial, v.offer i - v.granted i, stationPort i⟩]

/-! ### The laws of the state -/

/-- The laws of the ports (R168, R169, R77, R99): bounded queues, and a handler that stays BUSY while its take is
held. -/
structure State.PortsWf (s : State) : Prop where
  requestBound : ∀ p, (s.port p).requests.length ≤ (s.port p).depth.frames
  replyBound : ∀ p, (s.port p).replies.length ≤ replyRoom
  busyRoom : ∀ p, (s.port p).handler = .busy → (s.port p).replies.length < replyRoom
  heldOnce : (s.heldTakes.map HeldTake.station).Nodup
  heldBusy : ∀ h ∈ s.heldTakes, (s.port (stationPort h.station)).handler = .busy
  dispatchBusy : s.storage.held.isSome = true → (s.port storagePort).handler = .busy

/-- The laws of one pending entry (R157). -/
structure PendingEntry.Wf (e : PendingEntry) : Prop where
  counted : 1 ≤ e.count ∧ e.count ≤ 255
  single : e.kind.isStation = false → e.inst = 0
  flag : e.locked = true → e.kind = .rampHard

/-- The laws of the pending sets between events (R157): each (kind, instance) at most once. -/
structure State.SetsWf (s : State) : Prop where
  settled : ∀ p, (look s.router.sets p).fresh = []
  once : ∀ p, ((look s.router.sets p).entries.map fun e => (e.kind, e.inst)).Nodup
  each : ∀ p, ∀ e ∈ (look s.router.sets p).entries, e.Wf

/-- The states in which an entry is FAULTED exactly when its holding set is not empty (R51). -/
def StationState.followsHolding : StationState → Bool
  | .joining | .online | .stale | .faulted => true
  | .absent | .parked => false

/-- The laws of a station entry (R48, R51, R65, R70, R71). -/
structure Station.Wf (e : Station) : Prop where
  ratingRange : e.rating ≤ 65535
  appliedBound : e.applied ≤ e.rating
  availBound : e.avail ≤ e.rating
  parked : e.park.isSome = true ↔ e.state = .parked
  parkBound : ∀ c, e.park = some c → c ≤ e.rating
  interlocked : ∀ r, e.interlock = some r →
    e.state = .online ∧ r.granted ≤ e.rating ∧ r.reserved = r.granted - e.applied
  faulted : e.state.followsHolding = true → (e.state = .faulted ↔ e.holding ≠ 0)
  fresh : e.state ≠ .stale → e.staleDuration = 0
  absent : e.state = .absent → e.meas = 0 ∧ e.avail = 0 ∧ e.applied = 0 ∧ e.age = 0
  ranges : e.age ≤ 255 ∧ e.overshootRun ≤ 15 ∧ e.staleDuration ≤ 255

/-- The laws of the ten entries. -/
def State.StationsWf (s : State) : Prop := ∀ i, (s.station i).Wf

/-- The laws of a published record (R22, R23, R31, R35, R40). -/
structure Published.Lawful (r : Published) : Prop where
  band : r.lower ≤ r.upper ∧ r.upper ≤ r.rating
  sampled : r.sample ≤ r.rating
  gapOpen : r.collapsed = false → r.gap = 0
  gapShut : r.collapsed = true → 0 < r.gap ∧ r.lower = r.upper
  exact : (sumStations fun i => if look r.mask i then look r.offers i else 0) = r.allowance
  outside : ∀ i, look r.mask i = false → look r.offers i = 0
  oneSided : r.shortfall = 0 ∨ r.excess = 0
  noBattery : r.storageOnline = false → r.b = 0

/-- The samples the four queues hold are at most a bound. -/
def Extrema.Below (q : Extrema) (top : Nat) : Prop :=
  ∀ e ∈ q.shortMin ++ q.shortMax ++ q.longMin ++ q.longMax, e.value ≤ top

/-- The published record is lawful, and what the next record is made from is in range (R23, R24, R40). -/
structure State.RecordWf (s : State) : Prop where
  record : s.published.Lawful
  queues : s.halted = false → s.engine.queues.Below s.params.plantRating
  run : ∀ run, s.engine.run = .inFlight run →
    run.params.plantRating = s.params.plantRating ∧
      ∀ i, (look run.stations i).avail ≤ (look run.stations i).rating

/-- The ranges of R175 and the ordered pairs of R176. -/
structure Params.Wf (x : Params) : Prop where
  interval : x.interval ∈ [100, 200, 250, 500, 1000]
  windows : 2 ≤ x.winShort ∧ x.winShort ≤ 64 ∧ x.winShort ≤ x.winLong ∧ x.winLong ≤ 600
  limits : x.limShort ≤ 1000000 ∧ x.limLong ≤ 1000000
  rating : 1 ≤ x.plantRating ∧ x.plantRating ≤ 1000000
  recovery : x.socTarget ≤ 1000 ∧ x.socGain ≤ 255 ∧ x.recoveryCap ≤ 65535
  charge : x.socMin ≤ x.socMax ∧ x.socMax ≤ 1000
  tolerances : x.tolSoft ≤ x.tolHard ∧ x.tolHard ≤ 65535
  freeze : x.freezeAuto ≤ 255
  reports : x.telWmin ≤ 15 ∧ 1 ≤ x.telWmax ∧ x.telWmax ≤ 15 ∧ 1 ≤ x.telWdead ∧ x.telWdead ≤ 255
  overshoot : x.ovsTol ≤ 65535 ∧ 1 ≤ x.ovsCount ∧ x.ovsCount ≤ 15
  plausibility : x.plausTol ≤ 65535
  cap : x.faultCap ≤ 1000
  deadline : 1 ≤ x.takeDeadline ∧ x.takeDeadline ≤ 15
  step : x.raiseStep ≤ 65535
  urgentOnce : ∀ m n : Fin 8, ∀ k, look x.urgent m = some k → look x.urgent n = some k → m = n
  urgentKinds : ∀ n : Fin 8, ∀ k, look x.urgent n = some k → kindDefined k = true

/-- The samples of a window, newest first, that can still become its extreme (R18): each one that no newer sample
dominates, oldest first as the queues hold them. -/
def survivors (dominated : Nat → Nat → Bool) : List HistEntry → List QueueEntry
  | [] => []
  | e :: older =>
    ((survivors dominated older).filter fun x => !dominated x.value e.sample) ++
      [{ number := e.number, value := e.sample }]

/-- What the four queues hold of a history, newest first (R18, R20). -/
def windowExtrema (x : Params) (history : List HistEntry) : Extrema :=
  { shortMin := survivors minDominated (history.take x.winShort)
    shortMax := survivors maxDominated (history.take x.winShort)
    longMin := survivors minDominated (history.take x.winLong)
    longMax := survivors maxDominated (history.take x.winLong) }

/-- The laws of the engine (R2, R16, R18, R20): consecutive interval numbers, and queues that hold exactly their
windows' survivors while the engine is not HALTED. -/
structure State.EngineWf (s : State) : Prop where
  params : s.params.Wf
  length : s.engine.history.length ≤ historyLength
  numbered : ∀ a e newest, s.engine.history[a]? = some e → s.engine.history.head? = some newest →
    e.number = newest.number - BitVec.ofNat 32 a
  running : s.engine.run = .running → ∀ newest, s.engine.history.head? = some newest →
    s.engine.counter = newest.number + 1
  inFlight : ∀ run, s.engine.run = .inFlight run →
    s.engine.counter = run.number + 1 ∧ run.params.winShort = s.params.winShort ∧
      run.params.winLong = s.params.winLong ∧
      ∀ newest, s.engine.history.head? = some newest → run.number = newest.number + 1
  windows : s.halted = false → s.engine.queues = windowExtrema s.params s.engine.history

/-- The laws that tie the blocks to the engine's run state (R1, R8, R77, R87, R99), and those of the small flags
(R129, R145). -/
structure State.ModesWf (s : State) : Prop where
  timer : s.halted = true ↔ s.engine.timer = .stopped
  cleared : s.halted = true → s.published = Published.cleared ∧ s.engine.meter = none
  unheld : s.runInFlight = false → s.heldTakes = [] ∧ s.storage.held = none
  unpaired : s.halted = true → ∀ i, (s.station i).interlock = none ∧ (s.station i).ready = false
  released : ∀ n, (look s.ramp.scopes n).frozen = false → (look s.ramp.scopes n).cleanRuns = 0
  reason : s.stats.frozen = false ↔ s.stats.reason = FreezeReason.empty

end Sys2Proof.Machine
end

