-- ==== Sys2Proof/Certificates/Slice0/Obligations.lean ====
section
/-! DEFINITION. The statements for the provers, family by family of the command table. Numbers of kinds in the
answers are the kind codes of R166. The mark of the last FAULT-CLEAR is the model's own (log entry 24): every event
but a station's FAULT-CLEAR leaves it empty, which `State.replyOn` shows for the answered requests. -/

open Sys2Proof Sys2Proof.Machine

/-! ### The step and power-on -/

/-- One step runs the command at the front of the queue on the state with the queue's rest. On an empty queue the
block idles, which is the model's choice (log entry 2). -/
def Obligations.StepRunsFront : Prop :=
  (∀ (s : State) (c : Instr) (rest : List Instr), s.pending = c :: rest →
    step s = exec c { s with pending := rest }) ∧
  (∀ s : State, s.pending = [] → step s = .next s)

/-- POWER_ON puts every block in its power-on state whatever went before, and a port whose select is asserted waits
for its release (R179); the power-on values block by block (R43, R69, R90, R102, R120, R129, R136, R153, R162, R174,
R175). The queue of waiting commands and the count of free choices are the model's own and stay (log entry 19). -/
def Obligations.PowerOnResets : Prop :=
  (∀ (selected : BitVec 12) (s : State),
    exec (.powerOn selected) s = .next
      { State.reset with
        ports := tabulate fun p : Port =>
          { PortState.reset with link := if selected.getLsbD p.val then .awaitRelease else .idle }
        choices := s.choices
        pending := s.pending }) ∧
  (State.reset.engine =
    { run := .halted, timer := .stopped, counter := 0, meter := none, history := [],
      queues := { shortMin := [], shortMax := [], longMin := [], longMax := [] } } ∧
  State.reset.published = Published.cleared ∧
  (∀ i, State.reset.station i =
    { state := .absent, rating := 0, group := 0, meas := 0, avail := 0, age := 0, park := none, applied := 0,
      interlock := none, ready := false, statuses := 0, holding := 0, overshootRun := 0, staleDuration := 0 }) ∧
  State.reset.heldTakes = [] ∧
  State.reset.storage = { state := .absent, meas := 0, soc := 0, bdis := 0, bchg := 0, age := 0, held := none } ∧
  (State.reset.ramp.softUp = false ∧ State.reset.ramp.softDown = false ∧ State.reset.ramp.hardUp = false ∧
    State.reset.ramp.hardDown = false ∧ State.reset.ramp.capture = .empty) ∧
  (∀ n, look State.reset.ramp.scopes n = { frozen := false, cleanRuns := 0 }) ∧
  (∀ n, look State.reset.stats.counters n =
    { control := { source := .run, mask := 0, mode := .occurrence, threshold := 0, invert := false,
                   freezeOnOverflow := false, enable := false }
      value := 0, overflow := false, edge := false }) ∧
  (∀ n, look State.reset.stats.filters n =
    { portMatch := 0, portMask := 0, kindMatch := 0, kindMask := 0, tagMatch := 0, tagMask := 0 }) ∧
  (∀ n, look State.reset.stats.residency n = 0) ∧ State.reset.stats.runCounter = 0 ∧
  State.reset.stats.frozen = false ∧ State.reset.stats.freezeOnHard = false ∧
  State.reset.stats.reason = { manual := false, overflow := false, hard := false } ∧
  (∀ k : Fin 12, look State.reset.router.routes k =
    { mask := if k = 3 then 0xC00 else 0x800, ownPort := decide (k.val ≤ 2),
      release := if k = 1 then .clear else .ack }) ∧
  (∀ p, look State.reset.router.sets p = { entries := [], fresh := [] } ∧ State.reset.attentionLine p = false) ∧
  (∀ p, State.reset.port p =
    { requests := [], replies := [], handler := .idle, drop := false, ferr := false, depth := .four,
      link := .idle }) ∧
  (∀ n : Fin 8, look State.reset.params.urgent n = ([some 2, some 10, some 23, some 24, some 19, none, none, none] :
    List (Option Byte))[n.val]) ∧
  [1, 2, 3, 4, 5, 6, 7, 8, 9, 10, 11, 12, 13, 14, 15, 16, 19, 20, 21, 22, 23, 24, 25, 27, 28].map
      (fun id => getParam State.reset id 0) =
    [200, 10, 300, 3000, 10000, 100000, 0, 500, 0, 0, 50, 950, 500, 2000, 1, 0, 0, 3, 25, 200, 3, 200, 1000, 2, 100] ∧
  [0, 1, 2, 3].map (fun m => getParam State.reset 26 m) = [1, 2, 1, 3])

/-! ### Frames -/

/-- Select asserted on a port whose link is idle fixes the whole answer half: the status byte bit by bit, the answer
at the front of the reply queue or the NONE answer, and the CRC (R164, R165, R166). Elsewhere the event begins no
frame (log entry 4). The mark of log entry 24, the model's own, is cleared. -/
def Obligations.FrameStartFixesAnswerHalf : Prop :=
  ∀ (s : State) (p : Port),
    ((s.port p).link = .idle →
      ∃ h : AnswerHalf, exec (.frameStart p) s = .next
          { s.updPort p (fun x => { x with link := .inFrame h }) with lastClear := none } ∧
        h.status.getLsbD 7 = s.attentionLine p ∧
        (∀ i, p = stationPort i → h.status.getLsbD 6 = (s.station i).interlock.isSome) ∧
        (10 ≤ p.val → h.status.getLsbD 6 = false) ∧
        h.status.getLsbD 5 = (s.port p).drop ∧
        h.status.getLsbD 4 = (s.port p).ferr ∧
        h.status.getLsbD 3 = s.published.collapsed ∧
        (h.status.extractLsb' 0 3).toNat = s.published.plant.code ∧
        h.answer = (s.port p).replies.head? ∧
        ((s.port p).replies = [] → h.bits = h.status ++ (0 : BitVec 88) ++ h.crc) ∧
        (∀ a, (s.port p).replies.head? = some a →
          h.bits = h.status ++ (a.kind ++ a.tag ++ f8 a.code.code ++ a.payload) ++ h.crc) ∧
        h.crc = crc16 (h.bits.extractLsb' 16 96)) ∧
    ((s.port p).link ≠ .idle → exec (.frameStart p) s = .next s)

/-- A complete idle frame with a good CRC: the carried answer leaves the reply queue, the flags its status byte showed
are cleared, nothing is queued, and the frame filters' events are counted, in either order (R142, R145, R148, R164,
R165, R167). The mark of log entry 24, the model's own, is cleared. -/
def Obligations.IdleFrameDeliversAnswer : Prop :=
  ∀ (s : State) (p : Port) (h : AnswerHalf) (half : BitVec 112), s.Quiet → (s.port p).link = .inFrame h →
    (s.port p).requests = [] → crc16 (half.extractLsb' 16 96) = half.extractLsb' 0 16 →
    half.extractLsb' 104 8 = 0 →
    ∃ t, exec (.frameComplete p half) s = .next t ∧
      t = { s.updPort p (fun x =>
              { x with
                replies := if h.answer.isSome then x.replies.tail else x.replies
                drop := x.drop && !h.status.getLsbD 5
                ferr := x.ferr && !h.status.getLsbD 4
                link := .idle }) with
            stats := t.stats, router := t.router, choices := t.choices, lastClear := none } ∧
      (let hits (n : Fin 2) : Bool := (look s.stats.filters n).passes p 0 (half.extractLsb' 96 8)
       s.CountsTogether t
         [if hits 0 then [⟨.filter0, 0, p⟩] else [], if hits 1 then [⟨.filter1, 0, p⟩] else []]) ∧
      t.router = (if s.stats.frozen = false ∧ t.stats.frozen = true then (s.router.fire .statsFreeze 0 false).settle
        else s.router) ∧
      (s.stats.frozen = true ∨ t.stats.frozen = false → t.choices = s.choices)

/-- Frames in error: a bad CRC delivers the answer, sets FERR and counts CRC-ERROR; a wrong edge count keeps the
answer, sets FERR and counts FRAME-ERROR; neither queues anything. A port that waits for select to be released after a
power-on received no frame (R163, R165, R167, R179). A frame that ends on a port where none began counts as begun at
that instant, the model's choice (log entry 5). The mark of log entry 24, the model's own, is cleared. -/
def Obligations.ErroneousFramesSetFerr : Prop :=
  ∀ (s : State) (p : Port), s.Quiet →
    (∀ (h : AnswerHalf) (half : BitVec 112), (s.port p).link = .inFrame h → (s.port p).requests = [] →
      crc16 (half.extractLsb' 16 96) ≠ half.extractLsb' 0 16 →
      exec (.frameComplete p half) s = .next
        ((State.updPort { s with lastClear := none } p fun x =>
            { x with
              replies := if h.answer.isSome then x.replies.tail else x.replies
              drop := x.drop && !h.status.getLsbD 5
              ferr := true
              link := .idle }).statEvent .crcError 0 p).endEvent) ∧
    (∀ h : AnswerHalf, (s.port p).link = .inFrame h →
      exec (.framingError p) s = .next
        ((State.updPort { s with lastClear := none } p fun x => { x with ferr := true, link := .idle }).statEvent
          .frameError 0 p).endEvent) ∧
    ((s.port p).link = .idle → ∀ u, exec (.frameStart p) s = .next u →
      (∀ half, exec (.frameComplete p half) s = exec (.frameComplete p half) u) ∧
      exec (.framingError p) s = exec (.framingError p) u) ∧
    ((s.port p).link = .awaitRelease →
      (∀ half, exec (.frameComplete p half) s = .next
        { s.updPort p (fun x => { x with link := .idle }) with lastClear := none }) ∧
      exec (.framingError p) s = .next { s.updPort p (fun x => { x with link := .idle }) with lastClear := none })

/-- A complete frame that carries the request of a command delivers its answer, is tested by the frame filters, and
then acts as that command does (R148, R164, R167); where the handler is BUSY it joins the queue, or is dropped
untested where the queue is full (R168). An IDLE handler whose requests wait behind four answers takes the frame that
R170 chooses as soon as the delivered answer leaves, and the new request is judged after that (read from R167 and
R169, log entry 10), and the filters' test comes before the taking of the new request (read from R148, log entry 28).
That a request row is step 5 of R167 is the model's choice (log entry 1), and so is the mark that an event clears (log
entry 24). -/
def Obligations.RequestFrameActsAsItsCommand : Prop :=
  ∀ (s : State) (c : Instr) (p : Port) (r : Request) (h : AnswerHalf) (half : BitVec 112), s.Quiet →
    (s.port p).link = .inFrame h → requestOf c = some (p, r) → Request.ofHalf half = r →
    half.extractLsb' 104 8 ≠ 0 → half.extractLsb' 104 8 ≠ 11 →
    crc16 (half.extractLsb' 16 96) = half.extractLsb' 0 16 →
    let u := State.updPort { s with lastClear := none } p fun x =>
      { x with
        replies := if h.answer.isSome then x.replies.tail else x.replies
        drop := x.drop && !h.status.getLsbD 5
        ferr := x.ferr && !h.status.getLsbD 4
        link := .idle }
    let tested := u.filterFrame p (half.extractLsb' 104 8) (half.extractLsb' 96 8)
    (∀ w : State, exec c w = .next (State.arrive { w with lastClear := none } p r)) ∧
    ((s.port p).requests = [] → exec (.frameComplete p half) s = exec c tested) ∧
    ((s.port p).handler = .busy → (s.port p).requests.length < (s.port p).depth.frames →
      exec (.frameComplete p half) s = .next (tested.updPort p fun x => { x with requests := x.requests ++ [r] }).endEvent) ∧
    ((s.port p).handler = .busy → (s.port p).depth.frames ≤ (s.port p).requests.length →
      exec (.frameComplete p half) s =
        .next ((u.updPort p fun x => { x with drop := true }).statEvent .drop 0 p).endEvent) ∧
    ((s.port p).handler = .idle → (s.port p).replies.length = 4 → h.answer.isSome = true →
      ∀ (older : List Request) (w : Request) (newer : List Request), s.Chooses p older w newer →
        let v := (u.taking p older w newer).runHandlers
        exec (.frameComplete p half) s = .next
          ((if (v.port p).requests.length < (v.port p).depth.frames then
            v.filterFrame p (half.extractLsb' 104 8) (half.extractLsb' 96 8) else v).arrive p r))

/-- PORT-RESET with a good CRC (R68, R86, R100, R162, R173): the port's queues, flags, handler and pending set are
cleared; a held take is discarded; on a station port the open interlock ends by the worst case and the entry becomes
JOINING, or FAULTED while its holding set is not empty; on port 10 the record becomes JOINING; every other port and
block stays, and the Statistics Unit receives the filters' events and INTERLOCK-END. That raise-ready is found after the
entry left ONLINE is read from R85 (log entry 12). The source events come in any order (R142, log entry 26), so that a
STATS-FREEZE that a filter's event fires can stay in the port's own set; the mark of log entry 24 is cleared. -/
def Obligations.PortResetClearsItsPort : Prop :=
  ∀ (s : State) (p : Port) (h : AnswerHalf) (half : BitVec 112), s.Quiet → (s.port p).link = .inFrame h →
    ((s.port p).requests = [] ∨ (s.port p).handler = .busy) →
    crc16 (half.extractLsb' 16 96) = half.extractLsb' 0 16 → half.extractLsb' 104 8 = 11 →
    let hits (n : Fin 2) : Bool := (look s.stats.filters n).passes p 11 (half.extractLsb' 96 8)
    let tests : List (List SourceEvent) :=
      [if hits 0 then [⟨.filter0, 0, p⟩] else [], if hits 1 then [⟨.filter1, 0, p⟩] else []]
    ∃ t, exec (.frameComplete p half) s = .next t ∧
      t = { s.updPort p (fun x =>
              { x with requests := [], replies := [], handler := .idle, drop := false, ferr := false,
                       link := .idle }) with
            stations := t.stations, heldTakes := t.heldTakes, storage := t.storage, stats := t.stats,
            router := t.router, choices := t.choices, lastClear := none } ∧
      (s.stats.frozen = true ∨ t.stats.frozen = false → t.choices = s.choices) ∧
      (look t.router.sets p).fresh = [] ∧
      ((hits 0 = false ∧ hits 1 = false) ∨ s.stats.frozen = true ∨ t.stats.frozen = false → t.attentionLine p = false) ∧
      (let r := look s.router.routes 10
       t.attentionLine p = false ∨ (r.mask.getLsbD p.val = true ∧ (look t.router.sets p).entries =
         [{ kind := .statsFreeze, inst := 0, release := r.release, count := 1, locked := false }])) ∧
      t.router.routes = s.router.routes ∧
      (∀ q, q ≠ p →
        let stays (e : PendingEntry) : Bool := e.kind != .statsFreeze &&
          (e.release == .ack || (e.kind != .raiseReady && e.kind != .stnStale && e.kind != .storeStale))
        let others (e : PendingEntry) : Bool := e.kind != .statsFreeze && !(e.kind == .storeStale && p == storagePort) &&
          !((e.kind == .raiseReady || e.kind == .stnStale) && p == stationPort e.inst)
        (look t.router.sets q).entries.filter stays = (look s.router.sets q).entries.filter stays ∧
        (look t.router.sets q).entries.filter others = (look s.router.sets q).entries.filter others ∧
        (∀ i, p = stationPort i → s.Notices t i q ∧ s.ReadyNotice t i q) ∧
        t.router.AgreesAt
          (s.router.fired (if s.stats.frozen = false ∧ t.stats.frozen = true then 1 else 0) .statsFreeze 0)
          .statsFreeze 0 q ∧
        (p = storagePort → t.router.AgreesAt (s.router.endedIf (s.storage.state == .stale) .storeStale 0) .storeStale 0 q)) ∧
      (∀ i, p ≠ stationPort i → t.station i = s.station i) ∧
      (∀ i, p = stationPort i →
        let e := s.station i
        let new : StationState := if e.holding = 0 then .joining else .faulted
        t.heldTakes = s.heldTakes.filter (fun k => k.station != i) ∧
        s.CountsTogether t (tests ++ [match e.state, e.interlock with
          | .absent, _ | _, none => []
          | _, some r => [⟨.interlockEnd, r.granted - e.applied, p⟩]]) ∧
        t.station i =
          if e.state = .absent then e
          else { e with
                 state := new, park := none, age := 0
                 applied := match e.interlock with
                   | some r => max e.applied r.granted
                   | none => e.applied
                 interlock := none
                 staleDuration := if e.state = .stale then 0 else e.staleDuration
                 ready := if e.state = new ∧ e.interlock = none then e.ready else false }) ∧
      (10 ≤ p.val → t.heldTakes = s.heldTakes ∧ s.CountsTogether t tests) ∧
      (p = storagePort → t.storage =
        if s.storage.state = .absent then { s.storage with held := none }
        else { s.storage with held := none, state := .joining, age := 0 }) ∧
      (p ≠ storagePort → t.storage = s.storage)

/-! ### The request queue and the taking of a request -/

/-- A request that reaches a port whose handler cannot take it joins the back of the queue, or is dropped with the
DROP flag and the DROP event when the queue is full (R168, R169). The handlers take while any of them can, one request
after the other, each the frame that R170 chooses, and then leave the state as it is (R169). The mark of log
entry 24, the model's own, is cleared. -/
def Obligations.RequestWaitsOrIsDropped : Prop :=
  (∀ (s : State) (c : Instr) (p : Port) (r : Request), s.Quiet → requestOf c = some (p, r) →
    ((s.port p).handler = .busy ∨ 4 ≤ (s.port p).replies.length) →
    ((s.port p).requests.length < (s.port p).depth.frames →
      exec c s = .next
        { s.updPort p (fun x => { x with requests := x.requests ++ [r] }) with lastClear := none }) ∧
    ((s.port p).depth.frames ≤ (s.port p).requests.length →
      exec c s = .next
        ((State.updPort { s with lastClear := none } p fun x => { x with drop := true }).statEvent .drop 0
          p).endEvent)) ∧
  (∀ s : State, (∀ p, ¬ s.AbleToTake p) → s.runHandlers = s) ∧
  (∀ s : State, (∃ p, s.AbleToTake p) →
    ∃ (p : Port) (older : List Request) (w : Request) (newer : List Request) (n : Nat),
      s.AbleToTake p ∧ s.Chooses p older w newer ∧ ((∀ q, s.AbleToTake q → q = p) → n = s.choices) ∧
        s.runHandlers = (({ s with choices := n } : State).taking p older w newer).runHandlers)

/-- A kind code that names no kind is answered REFUSED(KIND), a defined kind that the port's role does not list
REFUSED(ROLE), both with a zero payload (R166, R172). -/
def Obligations.UndefinedKindOrWrongRoleRefused : Prop :=
  (∀ (s : State) (p : Port) (tag kind : Byte), (Instr.undefinedKind p tag kind).wellFormed = true → s.Serves p →
    exec (.undefinedKind p tag kind) s = .next (s.replyOn p kind tag .refusedKind 0)) ∧
  (∀ (s : State) (c : Instr) (p : Port) (r : Request), c.wellFormed = true → requestOf c = some (p, r) →
    s.Serves p → r.body.roleListed p = false →
    exec c s = .next (s.replyOn p r.body.kind r.tag .refusedRole 0))

/-- A request other than CEIL-APPLY and LEAVE taken on a station port with an open interlock first ends the interlock
by the worst case with INTERLOCK-ERR, which fires STN-MONITOR when its status was clear, and is then served on what
that left (R73, R74, R112). The mark of log entry 24, the model's own, is cleared first. -/
def Obligations.OtherRequestEndsInterlock : Prop :=
  ∀ (s : State) (c : Instr) (i : StationId) (r : Request) (open_ : Interlock),
    requestOf c = some (stationPort i, r) → s.Listening (stationPort i) → (s.station i).interlock = some open_ →
    r.body ≠ .leave → (∀ echo, r.body ≠ .ceilApply echo) →
    ∃ u : State, exec c s = .next (u.serve (stationPort i) r).endEvent ∧
      u = { s with stations := u.stations, stats := u.stats, router := u.router, lastClear := none } ∧
      s.router.DiffersOnly u.router (ownPairs i) ∧ (∀ q, s.Notices u i q ∧ s.ReadyNotice u i q) ∧
      (∀ j, j ≠ i → u.station j = s.station j) ∧
      (let e : Station :=
         { s.station i with applied := max (s.station i).applied open_.granted, interlock := none }
       let ended := s.statEvent .interlockEnd (open_.granted - (s.station i).applied) (stationPort i)
       u.station i = { e.afterEvent s.params.monInterlock .interlockErr with ready := u.readyCondition i } ∧
       u.stats = (if e.wouldFault s.params.monInterlock then ended.statEvent .faultEntry 0 (stationPort i)
                  else ended).stats)

/-! ### Joining and leaving -/

/-- JOIN on a station port (R53): an ABSENT entry with a rating above 0 becomes JOINING, or FAULTED while its holding
set is not empty, with age 0; with rating 0 it is refused; any other entry stays. JOIN on the storage port (R93): an
ABSENT record becomes JOINING with age 0, any other record stays. -/
def Obligations.JoinEntersJoining : Prop :=
  (∀ (s : State) (i : StationId) (tag : Byte), s.Serves (stationPort i) →
    let p := stationPort i
    let e := s.station i
    let new : StationState := if e.holding = 0 then .joining else .faulted
    (e.state = .absent → e.rating = 0 → exec (.join p tag) s = .next (s.replyOn p 1 tag .refusedState 0)) ∧
    (e.state = .absent → 0 < e.rating →
      exec (.join p tag) s = .next
        (State.replyOn { s.updStation i (fun e => { e with state := new, age := 0, ready := false }) with
            router := s.router.readyChange i e.ready false }
          p 1 tag .ok (f8 new.code ++ f16 e.rating ++ 0#40))) ∧
    (e.state ≠ .absent →
      exec (.join p tag) s = .next (s.replyOn p 1 tag .ok (f8 e.state.code ++ f16 e.rating ++ 0#40)))) ∧
  (∀ (s : State) (tag : Byte), s.Listening storagePort →
    (s.storage.state = .absent →
      exec (.join storagePort tag) s = .next
        (State.replyOn { s with storage := { s.storage with state := .joining, age := 0 } } storagePort 1 tag .ok
          (f8 1 ++ 0#56))) ∧
    (s.storage.state ≠ .absent →
      exec (.join storagePort tag) s = .next
        (s.replyOn storagePort 1 tag .ok (f8 s.storage.state.code ++ 0#56))))

/-- LEAVE on a station port, also with an interlock open, which it cancels, and with the notices of an exit from
ONLINE or STALE (R52, R54, R61, R74, R85, R89, R145), and on the storage port (R94). That raise-ready is found after
the entry left ONLINE is read from R85 (log entry 12). -/
def Obligations.LeaveMakesAbsent : Prop :=
  (∀ (s : State) (i : StationId) (tag : Byte), s.Listening (stationPort i) →
    let p := stationPort i
    let e := s.station i
    (e.state = .absent → exec (.leave p tag) s = .next (s.replyOn p 2 tag .ok 0)) ∧
    (e.state ≠ .absent →
      ∃ t, exec (.leave p tag) s = .next t ∧
        t = { (s.updStation i fun e =>
                { e with state := .absent, meas := 0, avail := 0, applied := 0, age := 0, park := none,
                         overshootRun := 0, staleDuration := 0, ready := false
                         interlock := if e.state = .online then none else e.interlock }).replyOn p 2 tag .ok 0 with
              stats := t.stats, router := t.router } ∧
        (∀ r, e.state = .online → e.interlock = some r →
          t.stats = (s.statEvent .interlockEnd (r.granted - e.applied) p).stats) ∧
        (e.state ≠ .online ∨ e.interlock = none → t.stats = s.stats) ∧
        s.router.DiffersOnly t.router (ownPairs i) ∧ (∀ q, s.Notices t i q ∧ s.ReadyNotice t i q))) ∧
  (∀ (s : State) (tag : Byte), s.Listening storagePort →
    (s.storage.state = .absent → exec (.leave storagePort tag) s = .next (s.replyOn storagePort 2 tag .ok 0)) ∧
    (s.storage.state ≠ .absent →
      exec (.leave storagePort tag) s = .next
        (State.replyOn
          { s with
            storage := { s.storage with state := .absent, meas := 0, age := 0 }
            router := if s.storage.state = .stale then s.router.conditionEnded .storeStale 0 else s.router }
          storagePort 2 tag .ok 0)))

/-! ### Telemetry -/

/-- TELEMETRY for an ABSENT entry is refused; an early report is discarded with an EARLY event, whose
status fires STN-MONITOR when it was clear (R52, R55, R109, R112). The avail
field of the early answer is read from R166 (log entry 8). -/
def Obligations.TelemetryRefusedOrEarly : Prop :=
  ∀ (s : State) (i : StationId) (tag : Byte) (meas avail : BitVec 16), s.Serves (stationPort i) →
    let p := stationPort i
    let e := s.station i
    let w := s.params.monWindow
    (e.state = .absent → exec (.telemetry p tag meas avail) s = .next (s.replyOn p 3 tag .refusedState 0)) ∧
    (e.state ≠ .absent → 0 < s.params.telWmin → e.age < s.params.telWmin →
      ∃ t, exec (.telemetry p tag meas avail) s = .next t ∧
        t = { (s.updStation i fun e =>
                { e.afterEvent w .early with
                  ready := if e.wouldFault w then false else e.ready }).replyOn p 3 tag .okIgnored
                (f8 (e.afterEvent w .early).state.code ++ f8 e.age ++ f16 e.avail ++ 0#32) with
              stats := t.stats, router := t.router } ∧
        t.stats = (if e.wouldFault w then s.statEvent .faultEntry 0 p else s).stats ∧
        s.router.DiffersOnly t.router (ownPairs i) ∧ (∀ q, s.Notices t i q ∧ s.ReadyNotice t i q))

/-- An accepted report (R52, R56, R57, R61, R88, R89, R105, R106, R108, R110, R111, R112, R114): what is stored, how
it is judged, the one state change, the notices and the answer. The premise on the entry is the invariant of
`Obligations.StationLawsKept`. -/
def Obligations.TelemetryAccepted : Prop :=
  ∀ (s : State) (i : StationId) (tag : Byte) (meas avail : BitVec 16), s.Serves (stationPort i) →
    (s.station i).Wf → (s.station i).state ≠ .absent →
    (s.params.telWmin = 0 ∨ s.params.telWmin ≤ (s.station i).age) →
    let p := stationPort i
    let e := s.station i
    let x := s.params
    let stored := min avail.toNat e.rating
    let bad : Bool := decide (e.rating < avail.toNat ∨ stored + x.plausTol < meas.toNat)
    let above : Bool := decide (e.applied + x.ovsTol < meas.toNat)
    let compared : Bool := e.state == .online || e.state == .faulted
    let count := if compared && above then min 15 (e.overshootRun + 1) else 0
    let rises : Bool := decide (0 < count ∧ x.ovsCount ≤ count)
    let joins (m : MonMode) : Bool := m == .latched || m == .cycle
    let holds (n : Nat) (mode : MonMode) (clean event : Bool) : Bool :=
      (e.holding.getLsbD n && !(mode == .cycle && clean)) || (event && joins mode)
    ∃ t, exec (.telemetry p tag meas avail) s = .next t ∧
      t = { (s.updStation i fun _ => t.station i).replyOn p 3 tag (if stored < avail.toNat then .okClamped else .ok)
              (f8 (t.station i).state.code ++ f8 0 ++ f16 stored ++ 0#32) with
            stats := t.stats, router := t.router } ∧
      t.station i =
        { e with
          age := 0, meas := meas.toNat, avail := stored, overshootRun := count
          state := if e.state = .parked then .parked else if (t.station i).holding = 0 then .online else .faulted
          statuses := (t.station i).statuses, holding := (t.station i).holding, staleDuration := 0
          ready := if (t.station i).state = e.state then e.ready else t.readyCondition i } ∧
      ((t.station i).holding.getLsbD 0 = holds 0 x.monWindow true false ∧
        (t.station i).holding.getLsbD 1 = holds 1 x.monOvershoot (!above) rises ∧
        (t.station i).holding.getLsbD 2 = holds 2 x.monPlausibility (!bad) bad ∧
        (t.station i).holding.getLsbD 3 = holds 3 x.monInterlock true false) ∧
      (∀ n, (t.station i).statuses.getLsbD n = (e.statuses.getLsbD n ||
        (n == 2 && rises && x.monOvershoot != .off) || (n == 4 && bad && x.monPlausibility != .off))) ∧
      t.stats = (if (t.station i).state = .faulted ∧ e.state ≠ .faulted then s.statEvent .faultEntry 0 p else s).stats ∧
      s.router.DiffersOnly t.router (ownPairs i) ∧ (∀ q, s.Notices t i q) ∧
      (let reported := s.updStation i fun e => { e with age := 0, meas := meas.toNat, avail := stored, state := .online }
       let mid : Bool := if e.state = .joining ∨ e.state = .stale then reported.readyCondition i else e.ready
       ∀ q, t.router.AgreesAt ((s.router.readyChange i e.ready mid).readyChange i mid (t.station i).ready) .raiseReady i q)

/-! ### Ceiling takes and confirmations -/

/-- CEIL-TAKE and DISP-TAKE taken while a run is in flight are held, unanswered, and the handler is BUSY (R77, R99,
R169), an ABSENT entry's too (read from R75, log entry 13). The mark of log entry 24, the model's own, is cleared. -/
def Obligations.TakesAreHeldDuringARun : Prop :=
  ∀ (s : State) (run : RunInputs) (tag : Byte), s.engine.run = .inFlight run →
    (∀ i, s.Serves (stationPort i) →
      exec (.ceilTake (stationPort i) tag) s = .next
        (State.updPort { s with heldTakes := s.heldTakes ++ [{ station := i, tag := tag }], lastClear := none }
          (stationPort i)
          fun x => { x with handler := .busy })) ∧
    (s.Listening storagePort →
      exec (.dispTake storagePort tag) s = .next
        (State.updPort { s with storage := { s.storage with held := some tag }, lastClear := none } storagePort
          fun x => { x with handler := .busy }))

/-- The CEIL-TAKE answers that grant nothing (R75, R76, R78): REFUSED(STATE) for an ABSENT entry; FIXED while HALTED,
or for an entry that is not ONLINE or not in the Online mask, with the ceiling of R78's table. No interlock opens and
the applied ceiling stays. That the offer field is limited to the live rating in every state is the model's choice (log
entry 25). -/
def Obligations.CeilTakeFixed : Prop :=
  ∀ (s : State) (i : StationId) (tag : Byte) (ceiling : Nat), s.Serves (stationPort i) → s.runInFlight = false →
    let p := stationPort i
    let e := s.station i
    (e.state = .faulted → ceiling = min e.applied (e.rating * s.params.faultCap / 1000)) →
    (e.state = .parked → e.park = some ceiling) →
    (e.state ≠ .faulted → e.state ≠ .parked → ceiling = e.applied) →
    (e.state = .absent → exec (.ceilTake p tag) s = .next (s.replyOn p 4 tag .refusedState 0)) ∧
    (e.state ≠ .absent → s.halted = true →
      exec (.ceilTake p tag) s = .next
        (s.replyOn p 4 tag .fixed (f8 e.state.code ++ f16 ceiling ++ f16 0 ++ 0#16 ++ 0#8))) ∧
    (e.state ≠ .absent → s.halted = false → e.state ≠ .online ∨ look s.published.mask i = false →
      exec (.ceilTake p tag) s = .next
        (State.replyOn { s.updStation i (fun e => { e with ready := false }) with
            router := s.router.readyChange i e.ready false }
          p 4 tag .fixed (f8 e.state.code ++ f16 ceiling ++ f16 (min (look s.published.offers i) e.rating) ++
            intervalTag s.published.number ++ 0#8)))

/-- The CEIL-TAKE answers that open an interlock (R71, R72, R75, R79, R80): the offer held or lowered, a raise from the
pool, or the applied ceiling while frozen; the interlock record, the statistics event, the pool afterwards, the
end of raise-ready and the answer. -/
def Obligations.CeilTakeGrants : Prop :=
  ∀ (s : State) (i : StationId) (tag : Byte), s.Serves (stationPort i) → s.engine.run = .running →
    (s.station i).state = .online → look s.published.mask i = true →
    let p := stationPort i
    let e := s.station i
    let offer := min (look s.published.offers i) e.rating
    let frozen : Bool := (look s.ramp.scopes (groupScope e.group)).frozen || (look s.ramp.scopes plantScope).frozen
    let pool : Int := (s.published.allowance : Int) -
      (sumStations fun j => if look s.published.mask j then
        (s.station j).applied + ((s.station j).interlock.map Interlock.reserved).getD 0 else 0 : Nat)
    let granted := if offer ≤ e.applied then offer else if frozen then e.applied
      else e.applied + min (offer - e.applied) pool.toNat
    let code : AnswerCode := if offer ≤ e.applied then .ok else if frozen then .partialFrozen
      else if granted = offer then .ok else .partialPool
    ∃ t, exec (.ceilTake p tag) s = .next t ∧
      t = { (s.updStation i fun e =>
              { e with
                interlock := some { granted := granted, reserved := granted - e.applied,
                                    takeTag := intervalTag s.published.number, publications := 0 }
                ready := false }).replyOn p 4 tag code
              (f8 e.state.code ++ f16 granted ++ f16 offer ++ intervalTag s.published.number ++ 0#8) with
            stats := t.stats, router := t.router } ∧
      s.pool = pool ∧ t.pool = pool - (granted - e.applied : Nat) ∧
      t.stats = (if offer ≤ e.applied then s
        else if granted = offer then s.statEvent .raiseFull (granted - e.applied) p
        else s.statEvent .raisePartial (offer - granted) p).stats ∧
      s.router.DiffersOnly t.router (ownPairs i) ∧ (∀ q, s.Notices t i q ∧ s.ReadyNotice t i q)

/-- CEIL-APPLY with an interlock open closes it: at most the grant it is stored as sent (R81), above the grant it is
stored up to the rating with an ECHO-HIGH event (R82). With no interlock open it is refused and leaves the applied
ceiling: REFUSED(STATE) for an ABSENT entry, else REFUSED(UNPAIRED) with UNPAIRED-APPLY counted, and an UNPAIRED event
for an ONLINE entry while the engine is not HALTED (R83). A status set fires STN-MONITOR when it was clear (R112). The
granted field of REFUSED(UNPAIRED) is 0 by log entry 20; UNPAIRED-APPLY and FAULT-ENTRY come in either order (R142,
log entry 27). -/
def Obligations.CeilApplyPairedAndUnpaired : Prop :=
  (∀ (s : State) (i : StationId) (tag : Byte) (echo : BitVec 16) (r : Interlock), s.Listening (stationPort i) →
    (s.station i).interlock = some r →
    let p := stationPort i
    let e := s.station i
    let stored := min echo.toNat e.rating
    let closed (applied : Nat) : State := s.updStation i fun e => { e with applied := applied, interlock := none }
    (echo.toNat ≤ r.granted →
      exec (.ceilApply p tag echo) s = .next
        (State.replyOn
          { (closed echo.toNat).updStation i
              (fun e => { e with ready := (closed echo.toNat).readyCondition i }) with
            router := s.router.readyChange i e.ready ((closed echo.toNat).readyCondition i) }
          p 5 tag .ok (echo ++ f16 r.granted ++ 0#32))) ∧
    (r.granted < echo.toNat →
      ∃ t, exec (.ceilApply p tag echo) s = .next t ∧
        t = { ((closed stored).updStation i fun e =>
                { e.afterEvent s.params.monOvershoot .echoHigh with ready := t.readyCondition i }).replyOn p 5 tag
                .okClamped (f16 stored ++ f16 r.granted ++ 0#32) with
              stats := t.stats, router := t.router } ∧
        t.stats = (if e.wouldFault s.params.monOvershoot then s.statEvent .faultEntry 0 p else s).stats ∧
        s.router.DiffersOnly t.router (ownPairs i) ∧ (∀ q, s.Notices t i q ∧ s.ReadyNotice t i q))) ∧
  (∀ (s : State) (i : StationId) (tag : Byte) (echo : BitVec 16), s.Serves (stationPort i) →
    let p := stationPort i
    let e := s.station i
    let judged : Bool := e.state == .online && !s.halted
    let m := s.params.monInterlock
    (e.state = .absent → exec (.ceilApply p tag echo) s = .next (s.replyOn p 5 tag .refusedState 0)) ∧
    (e.state ≠ .absent →
      ∃ t, exec (.ceilApply p tag echo) s = .next t ∧
        t = { (s.updStation i fun e =>
                { (if judged then e.afterEvent m .unpaired else e) with ready := t.readyCondition i }).replyOn p 5 tag
                .refusedUnpaired (f16 e.applied ++ f16 0 ++ 0#32) with
              stats := t.stats, router := t.router, choices := t.choices } ∧
        s.CountsTogether t
          [[⟨.unpairedApply, 0, p⟩], if judged && e.wouldFault m then [⟨.faultEntry, 0, p⟩] else []] ∧
        (s.stats.frozen = true ∨ t.stats.frozen = false → t.choices = s.choices) ∧
        s.router.DiffersOnly t.router (ownPairs i) ∧ (∀ q, s.Notices t i q ∧ s.ReadyNotice t i q)))

/-! ### The battery -/

/-- STOR-TEL (R95, R96): refused for an ABSENT record, discarded when early, else stored with meas and SOC clamped. The
meas and SOC fields of the early answer are read from R166 (log entry 8). -/
def Obligations.StorTelStoresReport : Prop :=
  ∀ (s : State) (tag : Byte) (meas : BitVec 32) (soc bdis bchg : BitVec 16), s.Listening storagePort →
    let x := s.storage
    let early : Bool := decide (0 < s.params.telWmin ∧ x.age < s.params.telWmin)
    let m : Int := max (-65535) (min 65535 meas.toInt)
    let c := min soc.toNat 1000
    (x.state = .absent →
      exec (.storTel storagePort tag meas soc bdis bchg) s = .next (s.replyOn storagePort 6 tag .refusedState 0)) ∧
    (x.state ≠ .absent → early = true →
      exec (.storTel storagePort tag meas soc bdis bchg) s = .next
        (s.replyOn storagePort 6 tag .okIgnored (f8 x.state.code ++ f8 x.age ++ s32 x.meas ++ f16 x.soc))) ∧
    (x.state ≠ .absent → early = false →
      exec (.storTel storagePort tag meas soc bdis bchg) s = .next
        (State.replyOn
          { s with
            storage := { x with state := .online, meas := m, soc := c, bdis := bdis.toNat, bchg := bchg.toNat, age := 0 }
            router := if x.state = .stale then s.router.conditionEnded .storeStale 0 else s.router }
          storagePort 6 tag (if m = meas.toInt ∧ c = soc.toNat then .ok else .okClamped)
          (f8 2 ++ f8 0 ++ s32 m ++ f16 c)))

/-- DISP-TAKE outside a run (R98): REFUSED(STATE) for an ABSENT record; OK with B when the record in force had storage
online, else FIXED with B 0; while HALTED FIXED from the cleared record. The premise that the halted engine's record is
the cleared one is part of `Obligations.ModeLawsKept`. -/
def Obligations.DispTakeAnswered : Prop :=
  ∀ (s : State) (tag : Byte), s.Listening storagePort → s.runInFlight = false →
    (s.halted = true → s.published = Published.cleared) →
    let r := s.published
    let answer (b : Int) : BitVec 64 :=
      intervalTag r.number ++
        f8 (r.plant.code + (if r.collapsed then 8 else 0) + 16 * s.storage.state.code + (if b < 0 then 128 else 0)) ++
        f16 b.natAbs ++
        f24 (if r.plant = .short then r.shortfall else if r.plant = .excess then r.excess else 0)
    (s.storage.state = .absent →
      exec (.dispTake storagePort tag) s = .next (s.replyOn storagePort 7 tag .refusedState 0)) ∧
    (s.storage.state ≠ .absent → r.storageOnline = true →
      exec (.dispTake storagePort tag) s = .next (s.replyOn storagePort 7 tag .ok (answer r.b))) ∧
    (s.storage.state ≠ .absent → r.storageOnline = false →
      exec (.dispTake storagePort tag) s = .next (s.replyOn storagePort 7 tag .fixed (answer 0)))

/-! ### Reads -/

/-- ENTRY-READ (R67, R101): the pages of a station's entry on its own port, whatever the entry number, and on the
supervisor port by number; the storage record's pages by number 10. -/
def Obligations.EntryReadReturnsPages : Prop :=
  (let page (e : Station) : Nat → Option (BitVec 64)
     | 0 => some (f8 (e.state.code + 16 * e.group.val) ++ f8 e.age ++ f16 e.rating ++ f16 e.meas ++ f16 e.avail)
     | 1 => some (f16 e.applied ++ f16 (e.park.getD 0) ++
         f8 ((if e.park.isSome then 1 else 0) + (if e.interlock.isSome then 2 else 0) + (if e.ready then 4 else 0)) ++
         0#24)
     | 2 => some (match e.interlock with
         | some r => f16 r.granted ++ f16 r.reserved ++ r.takeTag ++ f8 r.publications ++ 0#8
         | none => 0)
     | 3 => some (e.statuses ++ (0#4 ++ e.holding) ++ f8 e.overshootRun ++ f8 e.staleDuration ++ 0#32)
     | _ => none
   (∀ (s : State) (i : StationId) (tag number n : Byte), s.Serves (stationPort i) →
     exec (.entryRead (stationPort i) tag number n) s = .next
       (match page (s.station i) n.toNat with
       | some x => s.replyOn (stationPort i) 8 tag .ok x
       | none => s.replyOn (stationPort i) 8 tag .refusedRange 0)) ∧
   (∀ (s : State) (i : StationId) (tag number n : Byte), s.Listening supervisorPort → number.toNat = i.val →
     exec (.entryRead supervisorPort tag number n) s = .next
       (match page (s.station i) n.toNat with
       | some x => s.replyOn supervisorPort 8 tag .ok x
       | none => s.replyOn supervisorPort 8 tag .refusedRange 0))) ∧
  (∀ (s : State) (tag number n : Byte), s.Listening supervisorPort →
    let x := s.storage
    let live : Bool := x.state == .online
    (number.toNat = 10 → n.toNat = 0 →
      exec (.entryRead supervisorPort tag number n) s = .next
        (s.replyOn supervisorPort 8 tag .ok
          (f8 (x.state.code + (if x.meas < 0 then 128 else 0)) ++ f8 x.age ++ f16 x.meas.natAbs ++ f16 x.bdis ++
            f16 x.bchg))) ∧
    (number.toNat = 10 → n.toNat = 1 →
      exec (.entryRead supervisorPort tag number n) s = .next
        (s.replyOn supervisorPort 8 tag .ok
          (f16 x.soc ++ f16 (if live ∧ s.params.socMin < x.soc then x.bdis else 0) ++
            f16 (if live ∧ x.soc < s.params.socMax then x.bchg else 0) ++ f8 (if x.held.isSome then 1 else 0) ++
            0#8))) ∧
    (10 < number.toNat ∨ (number.toNat = 10 ∧ 1 < n.toNat) →
      exec (.entryRead supervisorPort tag number n) s = .next (s.replyOn supervisorPort 8 tag .refusedRange 0)))

/-- ATTN-READ on any port returns the entry count and the two oldest entries of the port's own set (R161, R166);
ATTN-ACK on any port removes the matching ACK entries of the port's own set and no others (R160). That a position with
no entry has 0 beside its clear present flag is the model's choice (log entry 30). -/
def Obligations.AttnReadAndAck : Prop :=
  (∀ (s : State) (p : Port) (tag : Byte), s.Serves p →
    let q := (look s.router.sets p).entries
    let shown : Option PendingEntry → BitVec 24
      | none => 0
      | some e => f8 (128 + (if e.release = .clear then 64 else 0) + (if e.locked then 32 else 0) + e.kind.code.val) ++
          f8 e.inst.val ++ f8 e.count
    exec (.attnRead p tag) s = .next (s.replyOn p 9 tag .ok (f8 q.length ++ shown q[0]? ++ shown q[1]? ++ 0#8))) ∧
  (∀ (s : State) (p : Port) (tag kind inst : Byte), s.Serves p →
    let q := (look s.router.sets p).entries
    let gone (e : PendingEntry) : Bool :=
      (kind == 255 || kind.toNat == e.kind.code.val) &&
        (inst == 255 || inst.toNat == e.inst.val || 3 ≤ e.kind.code.val) && e.release == .ack
    let left := q.filter fun e => !gone e
    ((12 ≤ kind.toNat ∧ kind ≠ 255) ∨ (10 ≤ inst.toNat ∧ inst ≠ 255) →
      exec (.attnAck p tag kind inst) s = .next (s.replyOn p 10 tag .refusedRange 0)) ∧
    ((kind.toNat ≤ 11 ∨ kind = 255) → (inst.toNat ≤ 9 ∨ inst = 255) →
      exec (.attnAck p tag kind inst) s = .next
        (State.replyOn
          { s with router := { s.router with sets := put s.router.sets p { entries := left, fresh := [] } } }
          p 10 tag .ok (f8 (q.length - left.length) ++ f8 left.length ++ 0#48))))

/-- PLANT-READ returns the published record page by page, in every engine state (R178); HIST-READ returns the entry of
an age, in every engine state (R17, R178). -/
def Obligations.PlantReadAndHistRead : Prop :=
  (∀ (s : State) (tag : Byte), s.Listening supervisorPort →
    let r := s.published
    let reads (page : Byte) (fields : BitVec 48) : Prop :=
      exec (.plantRead supervisorPort tag page) s =
        .next (s.replyOn supervisorPort 25 tag .ok (intervalTag r.number ++ fields))
    reads 0 (r.number ++ f8 (r.plant.code + (if r.collapsed then 8 else 0) + (if r.source = .metered then 16 else 0) +
      (if r.clamped then 32 else 0) + (if r.storageOnline then 64 else 0)) ++ 0#8) ∧
    reads 1 (f24 r.rating ++ f24 r.sample) ∧ reads 2 (f24 r.lower ++ f24 r.upper) ∧
    reads 3 (f24 r.gap ++ f24 r.forecast) ∧ reads 4 (f24 r.fc ++ f24 r.u0) ∧ reads 5 (s24 r.bPref ++ s24 r.b) ∧
    reads 6 (f24 r.allowance ++ f24 r.shortfall) ∧
    reads 7 (f24 r.excess ++ f24 (sumStations fun i => if look r.mask i then 2 ^ i.val else 0)) ∧
    (∀ (page : Byte) (a b : StationId), 8 ≤ page.toNat → a.val = 2 * (page.toNat - 8) →
      b.val = 2 * (page.toNat - 8) + 1 → reads page (f16 (look r.offers a) ++ f16 (look r.offers b) ++ 0#16)) ∧
    (∀ page : Byte, 12 < page.toNat →
      exec (.plantRead supervisorPort tag page) s = .next (s.replyOn supervisorPort 25 tag .refusedRange 0))) ∧
  (∀ (s : State) (tag : Byte) (age : BitVec 16), s.Listening supervisorPort →
    (∀ e, age.toNat ≤ 599 → s.engine.history[age.toNat]? = some e →
      exec (.histRead supervisorPort tag age) s = .next
        (s.replyOn supervisorPort 26 tag .ok
          (e.number ++ f24 e.sample ++
            f8 ((if e.source = .metered then 1 else 0) + (if e.clamped then 2 else 0))))) ∧
    (599 < age.toNat ∨ s.engine.history.length ≤ age.toNat →
      exec (.histRead supervisorPort tag age) s = .next (s.replyOn supervisorPort 26 tag .refusedRange 0)))

/-- STAT-READ returns the pages 0 to 25, in every engine state and whether or not the unit is frozen (R152). -/
def Obligations.StatReadReturnsPages : Prop :=
  ∀ (s : State) (tag page : Byte), s.Listening supervisorPort →
    let st := s.stats
    let reads (x : BitVec 64) : Prop :=
      exec (.statRead supervisorPort tag page) s = .next (s.replyOn supervisorPort 27 tag .ok x)
    let flags (f : Fin 8 → Bool) : Nat := ((List.finRange 8).map fun n => if f n then 2 ^ n.val else 0).sum
    (∀ n : Fin 8, page.toNat = n.val →
      let c := look st.counters n
      reads (c.value ++ f8 ((if c.overflow then 1 else 0) + (if c.control.enable then 2 else 0)) ++ 0#16)) ∧
    (∀ n : Fin 8, page.toNat = n.val + 8 →
      let c := (look st.counters n).control
      reads (f8 c.source.code ++ (0#4 ++ c.mask) ++
        f8 (c.mode.code + (if c.invert then 16 else 0) + (if c.freezeOnOverflow then 32 else 0) +
          (if c.enable then 64 else 0)) ++ c.threshold)) ∧
    (∀ n : Fin 7, page.toNat = n.val + 16 → reads (f32 (look st.residency n) ++ 0#32)) ∧
    (page.toNat = 23 →
      reads (st.runCounter ++
        f8 ((if st.frozen then 1 else 0) + (if st.reason.manual then 2 else 0) + (if st.reason.overflow then 4 else 0) +
          (if st.reason.hard then 8 else 0) + (if st.freezeOnHard then 16 else 0)) ++
        f8 (flags fun n => (look st.counters n).overflow) ++ f8 (flags fun n => (look st.counters n).edge) ++ 0#8)) ∧
    (∀ n : Fin 2, page.toNat = n.val + 24 →
      let f := look st.filters n
      reads (f.portMatch ++ f.portMask ++ f.kindMatch ++ f.kindMask ++ f.tagMatch ++ f.tagMask ++ 0#24)) ∧
    (25 < page.toNat →
      exec (.statRead supervisorPort tag page) s = .next (s.replyOn supervisorPort 27 tag .refusedRange 0))

/-- CAPT-READ returns the monitor page, the header pages and the station list, with the tests in their order (R133),
and CAPT-RELEASE unlocks the record and keeps its contents (R132). That page 8 shows 0 in the fields of a clear present
flag is the model's choice (log entry 30). -/
def Obligations.CaptureReadAndRelease : Prop :=
  ∀ (s : State) (tag : Byte), s.Listening supervisorPort →
    let reads (index : Byte) (code : AnswerCode) (x : BitVec 64) : Prop :=
      exec (.captRead supervisorPort tag index) s = .next (s.replyOn supervisorPort 29 tag code x)
    let scope (n : ScopeId) : Scope := look s.ramp.scopes n
    let frozen : Nat := (if (scope 0).frozen then 1 else 0) + (if (scope 1).frozen then 2 else 0) +
      (if (scope 2).frozen then 4 else 0) + (if (scope 3).frozen then 8 else 0) + (if (scope 4).frozen then 16 else 0)
    reads 0 .ok
      (f8 ((if s.ramp.softUp then 1 else 0) + (if s.ramp.softDown then 2 else 0) + (if s.ramp.hardUp then 4 else 0) +
          (if s.ramp.hardDown then 8 else 0)) ++ f8 s.ramp.capture.code ++ f8 frozen ++ f8 (scope 0).cleanRuns ++
        f8 (scope 1).cleanRuns ++ f8 (scope 2).cleanRuns ++ f8 (scope 3).cleanRuns ++ f8 (scope 4).cleanRuns) ∧
    (∀ index : Byte, 18 < index.toNat → reads index .refusedRange 0) ∧
    (∀ index : Byte, 1 ≤ index.toNat → index.toNat ≤ 18 → s.ramp.capture = .empty → reads index .refusedState 0) ∧
    (∀ d : CaptureData, (s.ramp.capture = .loaded d ∨ s.ramp.capture = .locked d) →
      reads 1 .ok (d.number ++ f32 d.sample) ∧ reads 2 .ok (s32 d.lower ++ s32 d.upper) ∧
      reads 3 .ok (s32 d.dUp ++ s32 d.dDn) ∧ reads 4 .ok (f32 d.forecast ++ f32 d.fc) ∧
      reads 5 .ok (f32 d.u0 ++ f32 d.allowance) ∧ reads 6 .ok (s32 d.bPref ++ s32 d.b) ∧
      reads 7 .ok (f32 d.shortfall ++ f32 d.excess) ∧
      reads 8 .ok
        (f8 ((if d.source = .metered then 1 else 0) + (if d.clamped then 2 else 0) + (if d.checked then 4 else 0) +
            (if d.collapsed then 8 else 0)) ++ f8 d.plant.code ++ f8 d.stations.length ++
          (match d.responsible with
          | some (i, x) => f8 (128 + i.val) ++ f16 x
          | none => (0 : BitVec 24)) ++
          (match d.frozenScope with
          | some n => f8 (128 + n.val)
          | none => (0 : BitVec 8)) ++ 0#8) ∧
      (∀ (index : Byte) (e : CaptureStation), 9 ≤ index.toNat → index.toNat ≤ 18 →
        d.stations[index.toNat - 9]? = some e →
        reads index .ok
          (f8 (e.port.val + 16 * e.state.code) ++ f16 e.meas ++ f16 e.avail ++ f16 e.applied ++ 0#8)) ∧
      (∀ index : Byte, 9 ≤ index.toNat → index.toNat ≤ 18 → d.stations.length ≤ index.toNat - 9 →
        reads index .refusedRange 0)) ∧
    (s.ramp.capture = .empty →
      exec (.captRelease supervisorPort tag) s = .next (s.replyOn supervisorPort 30 tag .ok (f8 0 ++ 0#56))) ∧
    (∀ d : CaptureData, (s.ramp.capture = .loaded d ∨ s.ramp.capture = .locked d) →
      exec (.captRelease supervisorPort tag) s = .next
        (State.replyOn { s with ramp := { s.ramp with capture := .loaded d } } supervisorPort 30 tag .ok
          (f8 1 ++ 0#56)))

/-! ### Parameters -/

/-- PARAM-SET of the parameters that are not indexed (R175, R176): what is stored for every value sent, the answer, and
the refusals in their order. -/
def Obligations.ParamSetStores : Prop :=
  ∀ (s : State) (tag : Byte) (v : BitVec 32), s.Listening supervisorPort →
    let x := s.params
    let n := v.toNat
    let writes (id : Byte) (y : Params) (stored : Nat) : Prop :=
      exec (.paramSet supervisorPort tag id 0 v) s = .next
        (State.replyOn { s with params := y } supervisorPort 16 tag (if stored = n then .ok else .okClamped)
          (id ++ 0#8 ++ f32 stored ++ 0#16))
    let refused (id index : Byte) (code : AnswerCode) : Prop :=
      exec (.paramSet supervisorPort tag id index v) s = .next (s.replyOn supervisorPort 16 tag code 0)
    let interval := if n < 150 then 100 else if n < 225 then 200 else if n < 375 then 250
      else if n < 750 then 500 else 1000
    let winShort := min (max 2 (min 64 n)) x.winLong
    let winLong := max (min 600 n) x.winShort
    (s.halted = true →
      writes 1 { x with interval := interval } interval ∧ writes 2 { x with winShort := winShort } winShort ∧
      writes 3 { x with winLong := winLong } winLong ∧
      writes 6 { x with plantRating := max 1 (min 1000000 n) } (max 1 (min 1000000 n))) ∧
    (s.halted = false →
      refused 1 0 .refusedState ∧ refused 2 0 .refusedState ∧ refused 3 0 .refusedState ∧
      refused 6 0 .refusedState) ∧
    writes 4 { x with limShort := min 1000000 n } (min 1000000 n) ∧
    writes 5 { x with limLong := min 1000000 n } (min 1000000 n) ∧
    writes 7 { x with sampleSource := if n = 0 then .summed else .metered } (min 1 n) ∧
    writes 8 { x with socTarget := min 1000 n } (min 1000 n) ∧
    writes 9 { x with socGain := min 255 n } (min 255 n) ∧
    writes 10 { x with recoveryCap := min 65535 n } (min 65535 n) ∧
    writes 11 { x with socMin := min (min 1000 n) x.socMax } (min (min 1000 n) x.socMax) ∧
    writes 12 { x with socMax := max (min 1000 n) x.socMin } (max (min 1000 n) x.socMin) ∧
    writes 13 { x with tolSoft := min (min 65535 n) x.tolHard } (min (min 65535 n) x.tolHard) ∧
    writes 14 { x with tolHard := max (min 65535 n) x.tolSoft } (max (min 65535 n) x.tolSoft) ∧
    writes 15 { x with hardResponse := if n = 0 then .report else if n = 1 then .freezeGroup else .freezePlant }
      (min 2 n) ∧
    writes 16 { x with freezeAuto := min 255 n } (min 255 n) ∧
    writes 19 { x with telWmin := min 15 n } (min 15 n) ∧
    writes 20 { x with telWmax := max 1 (min 15 n) } (max 1 (min 15 n)) ∧
    writes 21 { x with telWdead := max 1 (min 255 n) } (max 1 (min 255 n)) ∧
    writes 22 { x with ovsTol := min 65535 n } (min 65535 n) ∧
    writes 23 { x with ovsCount := max 1 (min 15 n) } (max 1 (min 15 n)) ∧
    writes 24 { x with plausTol := min 65535 n } (min 65535 n) ∧
    writes 25 { x with faultCap := min 1000 n } (min 1000 n) ∧
    writes 27 { x with takeDeadline := max 1 (min 15 n) } (max 1 (min 15 n)) ∧
    (∀ id index : Byte, id = 0 ∨ 31 < id.toNat → refused id index .refusedParam) ∧
    (∀ id index : Byte, 1 ≤ id.toNat → id.toNat ≤ 28 → id ≠ 17 → id ≠ 18 → id ≠ 26 → index ≠ 0 →
      refused id index .refusedRange)

/-- PARAM-SET of MON_MODE (R104, R119, R175): the monitor's one mode changes, and no status, holding set or count of
any station. -/
def Obligations.MonModeChangesTheModeOnly : Prop :=
  ∀ (s : State) (tag index : Byte) (v : BitVec 32), s.Listening supervisorPort →
    let n := v.toNat
    let mode : MonMode := if n = 0 then .off else if n = 1 then .warn else if n = 2 then .latched else .cycle
    let writes (y : Params) : Prop :=
      exec (.monMode supervisorPort tag index v) s = .next
        (State.replyOn { s with params := y } supervisorPort 16 tag (if n ≤ 3 then .ok else .okClamped)
          (26#8 ++ index ++ f32 (min 3 n) ++ 0#16))
    (index = 0 → writes { s.params with monWindow := mode }) ∧
    (index = 1 → writes { s.params with monOvershoot := mode }) ∧
    (index = 2 → writes { s.params with monPlausibility := mode }) ∧
    (index = 3 → writes { s.params with monInterlock := mode }) ∧
    (3 < index.toNat →
      exec (.monMode supervisorPort tag index v) s = .next (s.replyOn supervisorPort 16 tag .refusedRange 0))

/-- PARAM-SET of STATION_RATING (R65, R175): accepted in ABSENT and PARKED only; in PARKED it lowers the applied
ceiling, the park ceiling and the avail with it. -/
def Obligations.StationRatingWrites : Prop :=
  ∀ (s : State) (tag index : Byte) (v : BitVec 32), s.Listening supervisorPort →
    let r := min 65535 v.toNat
    let accepts (t : State) : Prop :=
      exec (.stationRating supervisorPort tag index v) s = .next
        (t.replyOn supervisorPort 16 tag (if r = v.toNat then .ok else .okClamped)
          (17#8 ++ index ++ f32 r ++ 0#16))
    let refused (code : AnswerCode) : Prop :=
      exec (.stationRating supervisorPort tag index v) s = .next (s.replyOn supervisorPort 16 tag code 0)
    (∀ i : StationId, index.toNat = i.val → (s.station i).state = .absent →
      accepts (s.updStation i fun e => { e with rating := r })) ∧
    (∀ i : StationId, index.toNat = i.val → (s.station i).state = .parked →
      accepts (s.updStation i fun e =>
        { e with rating := r, applied := min e.applied r, park := e.park.map fun c => min c r,
                 avail := min e.avail r })) ∧
    (∀ i : StationId, index.toNat = i.val → (s.station i).state ≠ .absent → (s.station i).state ≠ .parked →
      refused .refusedState) ∧
    (9 < index.toNat → refused .refusedRange)

/-- PARAM-SET of STATION_GROUP and of RAISE_STEP (R66, R88, R175): the value is stored and raise-ready is found again,
for the one station or for all ten, by the conditions of R88. -/
def Obligations.GroupAndRaiseStepReevaluate : Prop :=
  (∀ (s : State) (tag index : Byte) (v : BitVec 32), s.Listening supervisorPort →
    (∀ i : StationId, index.toNat = i.val →
      let g : Group := ⟨min 3 v.toNat, by omega⟩
      let u := s.updStation i fun e => { e with group := g }
      exec (.stationGroup supervisorPort tag index v) s = .next
        (State.replyOn
          { u.updStation i (fun e => { e with ready := u.readyCondition i }) with
            router := s.router.readyChange i (s.station i).ready (u.readyCondition i) }
          supervisorPort 16 tag (if v.toNat ≤ 3 then .ok else .okClamped) (18#8 ++ index ++ f32 g.val ++ 0#16))) ∧
    (9 < index.toNat →
      exec (.stationGroup supervisorPort tag index v) s = .next
        (s.replyOn supervisorPort 16 tag .refusedRange 0))) ∧
  (∀ (s : State) (tag : Byte) (v : BitVec 32), s.Listening supervisorPort →
    let r := min 65535 v.toNat
    ∃ t, exec (.raiseStep supervisorPort tag 0 v) s = .next t ∧
      t = { State.replyOn { s with params := { s.params with raiseStep := r } } supervisorPort 16 tag
              (if r = v.toNat then .ok else .okClamped) (28#8 ++ 0#8 ++ f32 r ++ 0#16) with
            stations := t.stations, router := t.router } ∧
      (∀ i, t.station i = { s.station i with ready := (t.station i).ready }) ∧
      (∀ i, (t.station i).ready = true ↔
        ((s.station i).state = .online ∧ look s.published.mask i = true ∧ (s.station i).interlock = none ∧
          (look s.ramp.scopes (groupScope (s.station i).group)).frozen = false ∧
          (look s.ramp.scopes plantScope).frozen = false ∧ 0 < r ∧
          (s.station i).applied + r ≤ min (look s.published.offers i) (s.station i).rating)) ∧
      s.router.DiffersOnly t.router (fun k _ => k == .raiseReady) ∧ (∀ i q, s.ReadyNotice t i q)) ∧
  (∀ (s : State) (tag index : Byte) (v : BitVec 32), s.Listening supervisorPort → index ≠ 0 →
    exec (.raiseStep supervisorPort tag index v) s = .next (s.replyOn supervisorPort 16 tag .refusedRange 0))

/-- PARAM-SET of QUEUE_DEPTH (R168, R175): 4 for any value but 1 and 4; the newest frames beyond the new depth are
discarded, each with its DROP event, and the DROP flag is set. -/
def Obligations.QueueDepthDiscardsNewest : Prop :=
  ∀ (s : State) (tag index : Byte) (v : BitVec 32), s.Listening supervisorPort →
    let d : Depth := if v = 1 then .one else .four
    (∀ q : Port, index.toNat = q.val →
      let n := (s.port q).requests.length - d.frames
      let u := s.updPort q fun x =>
        { x with depth := d, requests := x.requests.take d.frames, drop := x.drop || decide (0 < n) }
      exec (.queueDepth supervisorPort tag index v) s = .next
        (((fun w : State => w.statEvent .drop 0 q)^[n] u).replyOn supervisorPort 16 tag
          (if v = 1 ∨ v = 4 then .ok else .okClamped) (29#8 ++ index ++ f32 d.frames ++ 0#16)).endEvent) ∧
    (11 < index.toNat →
      exec (.queueDepth supervisorPort tag index v) s = .next (s.replyOn supervisorPort 16 tag .refusedRange 0))

/-- PARAM-SET of URGENT (R171, R175): 255 empties the position; a code that names no kind, or that stands in another
position, empties it too, answered OK-CLAMPED; any other kind code is stored. PARAM-SET of ROUTE (R155, R175): the
routing entry of one kind is written whole, own port held clear for the kinds 3 to 11, bits above 13 ignored; no
pending entry changes. -/
def Obligations.UrgentAndRouteWrites : Prop :=
  (∀ (s : State) (tag index : Byte) (v : BitVec 32), s.Listening supervisorPort →
    (∀ n : Fin 8, index.toNat = n.val →
      let writes (x : Option Byte) (code : AnswerCode) (stored : Nat) : Prop :=
        exec (.urgent supervisorPort tag index v) s = .next
          (State.replyOn { s with params := { s.params with urgent := put s.params.urgent n x } } supervisorPort 16
            tag code (30#8 ++ index ++ f32 stored ++ 0#16))
      (v = 255 → writes none .ok 255) ∧
      (∀ k : Byte, v = k.zeroExtend 32 → kindDefined k = true → (∀ m, m ≠ n → look s.params.urgent m ≠ some k) →
        writes (some k) .ok k.toNat) ∧
      (∀ k : Byte, v = k.zeroExtend 32 → k ≠ 255 →
        (kindDefined k = false ∨ ∃ m, m ≠ n ∧ look s.params.urgent m = some k) → writes none .okClamped 255) ∧
      (255 < v.toNat → writes none .okClamped 255)) ∧
    (7 < index.toNat →
      exec (.urgent supervisorPort tag index v) s = .next (s.replyOn supervisorPort 16 tag .refusedRange 0))) ∧
  (∀ (s : State) (tag index : Byte) (v : BitVec 32), s.Listening supervisorPort →
    (∀ k : Fin 12, index.toNat = k.val →
      let own : Bool := v.getLsbD 12 && decide (k.val ≤ 2)
      let stored := v.toNat % 4096 + (if own then 4096 else 0) + (if v.getLsbD 13 then 8192 else 0)
      exec (.route supervisorPort tag index v) s = .next
        (State.replyOn
          { s with
            router :=
              { s.router with
                routes := put s.router.routes k
                  { mask := v.truncate 12, ownPort := own, release := if v.getLsbD 13 then .clear else .ack } } }
          supervisorPort 16 tag (if stored = v.toNat then .ok else .okClamped)
          (31#8 ++ index ++ f32 stored ++ 0#16))) ∧
    (11 < index.toNat →
      exec (.route supervisorPort tag index v) s = .next (s.replyOn supervisorPort 16 tag .refusedRange 0)))

/-- PARAM-GET returns the stored value of every parameter, and refuses what PARAM-SET refuses by identifier and index
(R175). -/
def Obligations.ParamGetReturnsStored : Prop :=
  ∀ (s : State) (tag : Byte), s.Listening supervisorPort →
    let x := s.params
    let reads (id index : Byte) (stored : Nat) : Prop :=
      exec (.paramGet supervisorPort tag id index) s = .next
        (s.replyOn supervisorPort 17 tag .ok (id ++ index ++ f32 stored ++ 0#16))
    let refused (id index : Byte) (code : AnswerCode) : Prop :=
      exec (.paramGet supervisorPort tag id index) s = .next (s.replyOn supervisorPort 17 tag code 0)
    reads 1 0 x.interval ∧ reads 2 0 x.winShort ∧ reads 3 0 x.winLong ∧ reads 4 0 x.limShort ∧ reads 5 0 x.limLong ∧
    reads 6 0 x.plantRating ∧ reads 7 0 (if x.sampleSource = .metered then 1 else 0) ∧ reads 8 0 x.socTarget ∧
    reads 9 0 x.socGain ∧ reads 10 0 x.recoveryCap ∧ reads 11 0 x.socMin ∧ reads 12 0 x.socMax ∧
    reads 13 0 x.tolSoft ∧ reads 14 0 x.tolHard ∧ reads 15 0 x.hardResponse.code ∧ reads 16 0 x.freezeAuto ∧
    reads 19 0 x.telWmin ∧ reads 20 0 x.telWmax ∧ reads 21 0 x.telWdead ∧ reads 22 0 x.ovsTol ∧
    reads 23 0 x.ovsCount ∧ reads 24 0 x.plausTol ∧ reads 25 0 x.faultCap ∧ reads 26 0 x.monWindow.code ∧
    reads 26 1 x.monOvershoot.code ∧ reads 26 2 x.monPlausibility.code ∧ reads 26 3 x.monInterlock.code ∧
    reads 27 0 x.takeDeadline ∧ reads 28 0 x.raiseStep ∧
    (∀ (index : Byte) (i : StationId), index.toNat = i.val →
      reads 17 index (s.station i).rating ∧ reads 18 index (s.station i).group.val) ∧
    (∀ (index : Byte) (q : Port), index.toNat = q.val → reads 29 index (s.port q).depth.frames) ∧
    (∀ (index : Byte) (n : Fin 8), index.toNat = n.val →
      reads 30 index (match look x.urgent n with
        | some k => k.toNat
        | none => 255)) ∧
    (∀ (index : Byte) (k : Fin 12), index.toNat = k.val →
      let r := look s.router.routes k
      reads 31 index (r.mask.toNat + (if r.ownPort then 4096 else 0) + (if r.release = .clear then 8192 else 0))) ∧
    (∀ id index : Byte, id = 0 ∨ 31 < id.toNat → refused id index .refusedParam) ∧
    (∀ id index : Byte, 1 ≤ id.toNat → id.toNat ≤ 28 → id ≠ 17 → id ≠ 18 → id ≠ 26 → index ≠ 0 →
      refused id index .refusedRange) ∧
    (∀ index : Byte, (3 < index.toNat → refused 26 index .refusedRange) ∧
      (7 < index.toNat → refused 30 index .refusedRange) ∧
      (9 < index.toNat → refused 17 index .refusedRange ∧ refused 18 index .refusedRange) ∧
      (11 < index.toNat → refused 29 index .refusedRange ∧ refused 31 index .refusedRange))

/-! ### The engine -/

/-- ENG-START (R3, R10, R43, R129, R141 and the table of 11.2): refused unless HALTED; else the engine starts empty,
the record is cleared, ages and edge flags are cleared, every scope is released and no station is raise-ready. -/
def Obligations.EngStartStartsEmpty : Prop :=
  ∀ (s : State) (tag : Byte), s.Listening supervisorPort →
    (s.halted = false →
      exec (.engStart supervisorPort tag) s = .next (s.replyOn supervisorPort 18 tag .refusedState 0)) ∧
    (s.halted = true →
      ∃ t, exec (.engStart supervisorPort tag) s = .next t ∧
        t = { s.replyOn supervisorPort 18 tag .ok 0 with
              engine := { run := .running, timer := .running s.params.interval, counter := 0, meter := none,
                          history := [], queues := { shortMin := [], shortMax := [], longMin := [], longMax := [] } }
              published := Published.cleared
              stations := tabulate fun i => { s.station i with age := 0, ready := false }
              storage := { s.storage with age := 0 }
              ramp := { s.ramp with scopes := Vector.replicate 5 { frozen := false, cleanRuns := 0 } }
              stats := { s.stats with
                         counters := tabulate fun n => { look s.stats.counters n with edge := false } }
              router := t.router } ∧
        s.router.DiffersOnly t.router (fun k _ => k == .raiseReady || k == .freeze) ∧
        (∀ i q, s.ReadyNotice t i q) ∧
        (∀ q, t.router.AgreesAt (s.router.endedIf (decide (∃ n, (look s.ramp.scopes n).frozen = true)) .freeze 0)
          .freeze 0 q))

/-- ENG-HALT (R3, R8, R9, R87, R99): no effect while HALTED; else the engine halts, the record is cleared, every
interlock ends by the worst case, every held take is answered as one taken while HALTED, and history, queues and
counter stay. The request queues are empty, so that no handler that becomes IDLE takes a further request. The source
events of the interlocks' ends come in any order (R50, R142, log entry 15); the mark of log entry 24 is cleared. -/
def Obligations.EngHaltStopsAndAnswers : Prop :=
  ∀ (s : State) (tag : Byte), s.Listening supervisorPort →
    (s.halted = true → exec (.engHalt supervisorPort tag) s = .next (s.replyOn supervisorPort 19 tag .ok 0)) ∧
    (s.halted = false → (∀ q, (s.port q).requests = []) → (s.heldTakes.map HeldTake.station).Nodup →
      ∃ t, exec (.engHalt supervisorPort tag) s = .next t ∧
        t = { s with
              engine := { s.engine with run := .halted, timer := .stopped, meter := none }
              published := Published.cleared
              stations := tabulate fun i =>
                { s.station i with
                  applied := match (s.station i).interlock with
                    | some r => max (s.station i).applied r.granted
                    | none => (s.station i).applied
                  interlock := none, ready := false }
              heldTakes := []
              storage := { s.storage with held := none }
              stats := t.stats
              router := t.router
              ports := t.ports
              choices := t.choices
              lastClear := none } ∧
        s.CountsTogether t (stationIds.map fun i =>
          match (s.station i).interlock with
          | some r => [⟨.interlockEnd, r.granted - (s.station i).applied, stationPort i⟩]
          | none => []) ∧
        (s.stats.frozen = true ∨ t.stats.frozen = false → t.choices = s.choices) ∧
        s.router.DiffersOnly t.router (fun k _ => k == .raiseReady || k == .statsFreeze) ∧
        (∀ i q, s.Notices t i q ∧ s.ReadyNotice t i q) ∧
        (∀ h ∈ s.heldTakes,
          let e := t.station h.station
          t.port (stationPort h.station) =
            { s.port (stationPort h.station) with
              handler := .idle
              replies := (s.port (stationPort h.station)).replies ++
                [{ kind := 4, tag := h.tag, code := if e.state = .absent then .refusedState else .fixed
                   payload := if e.state = .absent then 0
                     else f8 e.state.code ++ f16 (fixedCeiling s.params e) ++ f16 0 ++ 0#16 ++ 0#8 }] }) ∧
        (∀ g, s.storage.held = some g →
          t.port storagePort =
            { s.port storagePort with
              handler := .idle
              replies := (s.port storagePort).replies ++
                [{ kind := 7, tag := g, code := if s.storage.state = .absent then .refusedState else .fixed
                   payload := if s.storage.state = .absent then 0
                     else 0#16 ++ f8 (6 + 16 * s.storage.state.code) ++ f16 0 ++ f24 0 }] }) ∧
        t.port supervisorPort =
          { s.port supervisorPort with
            replies := (s.port supervisorPort).replies ++ [{ kind := 19, tag := tag, code := .ok, payload := 0 }] } ∧
        (∀ i, i ∉ s.heldTakes.map HeldTake.station → t.port (stationPort i) = s.port (stationPort i)) ∧
        (s.storage.held = none → t.port storagePort = s.port storagePort))

/-- METER (R11): refused while HALTED and for a tag that is not the interval's, tested before the value; else stored,
limited to 1,000,000. -/
def Obligations.MeterFillsSlot : Prop :=
  State.reset.engine.meter = none ∧
  ∀ (s : State) (tag : Byte) (value : BitVec 32) (k : BitVec 16), s.Listening supervisorPort →
    let stored := min value.toNat 1000000
    (s.halted = true →
      exec (.meter supervisorPort tag value k) s = .next (s.replyOn supervisorPort 20 tag .refusedState 0)) ∧
    (s.halted = false → k ≠ s.engine.counter.truncate 16 →
      exec (.meter supervisorPort tag value k) s = .next (s.replyOn supervisorPort 20 tag .refusedTag 0)) ∧
    (s.halted = false → k = s.engine.counter.truncate 16 →
      exec (.meter supervisorPort tag value k) s = .next
        (State.replyOn { s with engine := { s.engine with meter := some { value := stored, tag := k } } }
          supervisorPort 20 tag (if 1000000 < value.toNat then .okClamped else .ok) (f32 stored ++ 0#32)))

/-! ### Parking and clearing -/

/-- PARK makes any entry but an ABSENT one PARKED with the smaller of the value sent and the rating as its park
ceiling, and an entry that leaves ONLINE ends its interlock by the worst case, one that leaves STALE its STN-STALE
entries; UNPARK makes a PARKED entry JOINING, or FAULTED while its holding set is not empty (R52, R61, R63, R64,
R85). -/
def Obligations.ParkAndUnpark : Prop :=
  (∀ (s : State) (tag station : Byte) (ceiling : BitVec 16), s.Listening supervisorPort →
    (9 < station.toNat →
      exec (.park supervisorPort tag station ceiling) s = .next (s.replyOn supervisorPort 21 tag .refusedRange 0)) ∧
    (∀ i : StationId, station.toNat = i.val →
      let e := s.station i
      let c := min ceiling.toNat e.rating
      (e.state = .absent →
        exec (.park supervisorPort tag station ceiling) s = .next
          (s.replyOn supervisorPort 21 tag .refusedState 0)) ∧
      (e.state ≠ .absent →
        ∃ t, exec (.park supervisorPort tag station ceiling) s = .next t ∧
          t = { (s.updStation i fun e =>
                  { e with
                    state := .parked, park := some c
                    applied := match e.state, e.interlock with
                      | .online, some r => max e.applied r.granted
                      | _, _ => e.applied
                    interlock := if e.state = .online then none else e.interlock
                    staleDuration := if e.state = .stale then 0 else e.staleDuration
                    ready := if e.state = .parked then e.ready else false }).replyOn supervisorPort 21 tag
                  (if e.rating < ceiling.toNat then .okClamped else .ok) (f8 5 ++ f16 c ++ 0#40) with
                stats := t.stats, router := t.router } ∧
          (∀ r, e.state = .online → e.interlock = some r →
            t.stats = (s.statEvent .interlockEnd (r.granted - e.applied) (stationPort i)).stats) ∧
          (e.state ≠ .online ∨ e.interlock = none → t.stats = s.stats) ∧
          s.router.DiffersOnly t.router (ownPairs i) ∧ (∀ q, s.Notices t i q ∧ s.ReadyNotice t i q)))) ∧
  (∀ (s : State) (tag station : Byte), s.Listening supervisorPort →
    (9 < station.toNat →
      exec (.unpark supervisorPort tag station) s = .next (s.replyOn supervisorPort 22 tag .refusedRange 0)) ∧
    (∀ i : StationId, station.toNat = i.val →
      let new : StationState := if (s.station i).holding = 0 then .joining else .faulted
      ((s.station i).state ≠ .parked →
        exec (.unpark supervisorPort tag station) s = .next (s.replyOn supervisorPort 22 tag .refusedState 0)) ∧
      ((s.station i).state = .parked →
        exec (.unpark supervisorPort tag station) s = .next
          (State.replyOn
            { s.updStation i (fun e => { e with state := new, park := none, ready := false }) with
              router := s.router.readyChange i (s.station i).ready false }
            supervisorPort 22 tag .ok (f8 new.code ++ 0#56)))))

/-- FAULT-CLEAR of a station (R116): statuses, holding set and overshoot run count cleared, a FAULTED entry JOINING,
CLEAR-routed STN-MONITOR entries released when there was something to clear; that the count is cleared in every case
is log entry 14, and the mark left for a run start at the same instant is the model's own (log entry 24). FAULT-CLEAR
of the plant (R123): the four statuses cleared, CLEAR-routed RAMP-SOFT and RAMP-HARD entries released; scopes, counts
and capture stay. -/
def Obligations.FaultClearStationAndPlant : Prop :=
  (∀ (s : State) (tag station : Byte), s.Listening supervisorPort → station ≠ 255 →
    (9 < station.toNat →
      exec (.faultClear supervisorPort tag station) s = .next (s.replyOn supervisorPort 23 tag .refusedRange 0)) ∧
    (∀ i : StationId, station.toNat = i.val →
      let e := s.station i
      let new : StationState := if e.state = .faulted then .joining else e.state
      let ready : Bool := if e.state = .faulted then false else e.ready
      let x := s.router.readyChange i e.ready ready
      exec (.faultClear supervisorPort tag station) s = .next
        { State.replyOn
            { s.updStation i (fun e =>
                { e with statuses := 0, holding := 0, overshootRun := 0, state := new, ready := ready }) with
              router := if e.statuses = 0 ∧ e.holding = 0 then x else x.conditionEnded .stnMonitor i }
            supervisorPort 23 tag .ok (f8 new.code ++ 0#56) with
          lastClear := some i })) ∧
  (∀ (s : State) (tag : Byte), s.Listening supervisorPort →
    exec (.faultClearPlant supervisorPort tag) s = .next
      (State.replyOn
        { s with
          ramp := { s.ramp with softUp := false, softDown := false, hardUp := false, hardDown := false }
          router :=
            { s.router with
              sets := tabulate fun p =>
                { entries := (look s.router.sets p).entries.filter fun e =>
                    !(e.release == .clear && e.inst == 0 && (e.kind == .rampSoft || e.kind == .rampHard))
                  fresh := [] } } }
        supervisorPort 23 tag .ok 0))

/-- FREEZE-RELEASE (R128, R129): each named scope that is frozen is released; raise-ready is found again when one was,
and CLEAR-routed FREEZE entries go when none is left frozen. -/
def Obligations.FreezeReleaseReleasesNamed : Prop :=
  ∀ (s : State) (tag scope : Byte), s.Listening supervisorPort →
    (4 < scope.toNat → scope ≠ 255 →
      exec (.freezeRelease supervisorPort tag scope) s = .next
        (s.replyOn supervisorPort 24 tag .refusedRange 0)) ∧
    (scope.toNat ≤ 4 ∨ scope = 255 →
      let named (n : ScopeId) : Bool := scope == 255 || scope.toNat == n.val
      let was (n : ScopeId) : Bool := (look s.ramp.scopes n).frozen
      let now (n : ScopeId) : Bool := was n && !named n
      ∃ t, exec (.freezeRelease supervisorPort tag scope) s = .next t ∧
        t = { State.replyOn
                { s with
                  ramp := { s.ramp with
                    scopes := tabulate fun n =>
                      if named n && was n then { frozen := false, cleanRuns := 0 } else look s.ramp.scopes n } }
                supervisorPort 24 tag .ok
                (f8 ((if now 0 then 1 else 0) + (if now 1 then 2 else 0) + (if now 2 then 4 else 0) +
                  (if now 3 then 8 else 0) + (if now 4 then 16 else 0)) ++ 0#56) with
              stations := t.stations, router := t.router } ∧
        (∀ i, t.station i =
          { s.station i with
            ready := if ∃ n, was n = true ∧ named n = true then t.readyCondition i else (s.station i).ready }) ∧
        s.router.DiffersOnly t.router (fun k _ => k == .raiseReady || k == .freeze) ∧ (∀ i q, s.ReadyNotice t i q) ∧
        ((∃ n, was n = true) → (∀ n, now n = false) → ∀ p, ∀ e ∈ (look t.router.sets p).entries,
          e.kind = .freeze → e.inst = 0 → e.release = .ack) ∧
        ((∃ n, now n = true) ∨ (∀ n, was n = false) → ∀ p,
          (look t.router.sets p).entries.filter (fun e => e.kind == .freeze) =
            (look s.router.sets p).entries.filter (fun e => e.kind == .freeze)))

/-! ### Statistics control -/

/-- STAT-CTRL FREEZE, UNFREEZE and CLEAR-ALL, on a frozen unit and on one that is not (R145, R149, R151): the frozen
state, the reason, the counts that CLEAR-ALL sets to 0, and the STATS-FREEZE firing or release. -/
def Obligations.StatFreezeUnfreezeClear : Prop :=
  ∀ (s : State) (tag : Byte), s.Listening supervisorPort →
    let st := s.stats
    let yields (c : Instr) (t : State) (frozen : Nat) : Prop :=
      exec c s = .next (t.replyOn supervisorPort 28 tag .ok (f8 frozen ++ 0#56))
    let ended := s.router.conditionEnded .statsFreeze 0
    let noReason : FreezeReason := { manual := false, overflow := false, hard := false }
    (st.frozen = false → yields (.freeze supervisorPort tag)
      { s with
        stats := { st with frozen := true, reason := { manual := true, overflow := false, hard := false } }
        router := (s.router.fire .statsFreeze 0 false).settle } 1) ∧
    (st.frozen = true → yields (.freeze supervisorPort tag) s 1) ∧
    (st.frozen = true → yields (.unfreeze supervisorPort tag)
      { s with stats := { st with frozen := false, reason := noReason }, router := ended } 0) ∧
    (st.frozen = false → yields (.unfreeze supervisorPort tag) s 0) ∧
    yields (.clearAll supervisorPort tag)
      { s with
        stats := { st with
          counters := tabulate fun n => { look st.counters n with value := 0, overflow := false }
          residency := Vector.replicate 7 0, frozen := false, reason := if st.frozen then noReason else st.reason }
        router := if st.frozen then ended else s.router } 0

/-- STAT-CTRL CLEAR-OVF, PRESET, CONFIGURE, FILTER and FREEZE-ON-HARD, and the refusals (R144, R148 to R151); for
FREEZE-ON-HARD with a byte other than 0 and 1 the setting is a free value (log entry 7) and the rest is stated. The
bits of CONFIGURE that R166 does not name are ignored (log entry 17). -/
def Obligations.StatControlWrites : Prop :=
  ∀ (s : State) (tag : Byte), s.Listening supervisorPort →
    let st := s.stats
    let frozen := f8 (if st.frozen then 1 else 0)
    let refused (c : Instr) : Prop := exec c s = .next (s.replyOn supervisorPort 28 tag .refusedRange 0)
    (∀ counters : Byte, exec (.clearOvf supervisorPort tag counters) s = .next
      (State.replyOn
        { s with
          stats := { st with
            counters := (tabulate fun n =>
              if counters.getLsbD n.val then { look st.counters n with overflow := false } else look st.counters n) } }
        supervisorPort 28 tag .ok (frozen ++ 0#56))) ∧
    (∀ (counter : Byte) (value : BitVec 40) (n : Fin 8), counter.toNat = n.val →
      exec (.preset supervisorPort tag counter value) s = .next
        (State.replyOn
          { s with stats := { st with counters := put st.counters n { look st.counters n with value := value } } }
          supervisorPort 28 tag .ok (frozen ++ value ++ 0#16))) ∧
    (∀ (counter : Byte) (c : Control) (record : BitVec 64) (n : Fin 8), counter.toNat = n.val →
      record.extractLsb' 56 8 = f8 c.source.code → c.mask = (record.extractLsb' 40 16).truncate 12 →
      (record.extractLsb' 32 2).toNat = c.mode.code → c.invert = record.getLsbD 36 →
      c.freezeOnOverflow = record.getLsbD 37 → c.enable = record.getLsbD 38 →
      c.threshold = record.extractLsb' 0 32 →
      exec (.configure supervisorPort tag counter record) s = .next
        (State.replyOn
          { s with stats := { st with
              counters := put st.counters n { look st.counters n with control := c, edge := false } } }
          supervisorPort 28 tag .ok (frozen ++ 0#56))) ∧
    (∀ (which : Byte) (f : Filter) (n : Fin 2), which.toNat = n.val →
      exec (.filter supervisorPort tag which
          (f.portMatch ++ f.portMask ++ f.kindMatch ++ f.kindMask ++ f.tagMatch ++ f.tagMask)) s = .next
        (State.replyOn { s with stats := { st with filters := put st.filters n f } } supervisorPort 28 tag .ok
          (frozen ++ 0#56))) ∧
    (∀ value : Byte, ∃ b : Bool, (value = 1 → b = true) ∧ (value = 0 → b = false) ∧
      exec (.freezeOnHard supervisorPort tag value) s = .next
        (State.replyOn { s with stats := { st with freezeOnHard := b } } supervisorPort 28 tag .ok
          (frozen ++ 0#56))) ∧
    (∀ (counter : Byte) (value : BitVec 40), 7 < counter.toNat → refused (.preset supervisorPort tag counter value)) ∧
    (∀ (counter : Byte) (record : BitVec 64), 7 < counter.toNat ∨ 20 < (record.extractLsb' 56 8).toNat ∨
      record.extractLsb' 32 2 = 3 → refused (.configure supervisorPort tag counter record)) ∧
    (∀ (which : Byte) (record : BitVec 40), 1 < which.toNat → refused (.filter supervisorPort tag which record)) ∧
    (∀ action : Byte, 7 < action.toNat → refused (.undefinedAction supervisorPort tag action))

/-! ### The run -/

/-- TIMER_EXPIRY (R2, R4, R49, R59, R60, R73, R85, R91, R97, R107, R109, R111, R112): in RUNNING the tables age, with
the stale transitions and DEAD events that causes, their source events and firings, and run k begins on a snapshot of
what that left; in the other run states the event changes nothing (read from R3, log entry 4). The source
events come in any order (R50, R142, log entry 15). The snapshot shows an entry that DEAD made FAULTED as FAULTED
(R109), but where its FAULT-CLEAR is the event just before and so may be taken at the same instant, as FAULTED or as
STALE (R117), which the model leaves open (log entry 24). That a TEL_WDEAD raised after a DEAD brings a second DEAD in
the same stay in STALE is the model's choice (R60, R107, log entry 29). -/
def Obligations.TimerExpiryBeginsRun : Prop :=
  ∀ s : State, (∀ p, (look s.router.sets p).fresh = []) →
    (s.engine.run ≠ .running → exec .timerExpiry s = .next s) ∧
    (s.engine.run = .running →
      ∃ (t : State) (shown : StationId → StationState), exec .timerExpiry s = .next t ∧
        t = { s with
              engine := { s.engine with
                run := .inFlight
                  { number := s.engine.counter
                    stations := tabulate fun i =>
                      { state := shown i, rating := (t.station i).rating, group := (t.station i).group,
                        meas := (t.station i).meas, avail := (t.station i).avail, applied := (t.station i).applied }
                    storage := { state := t.storage.state, meas := t.storage.meas, soc := t.storage.soc,
                                 bdis := t.storage.bdis, bchg := t.storage.bchg }
                    params := s.params
                    meter := s.engine.meter }
                counter := s.engine.counter + 1
                meter := none }
              stations := t.stations, storage := t.storage, stats := t.stats, router := t.router
              choices := t.choices, lastClear := none } ∧
        (∀ i, shown i = (t.station i).state ∨
          ((s.station i).state = .stale ∧ (t.station i).state = .faulted ∧ s.lastClear = some i ∧ shown i = .stale)) ∧
        (s.lastClear = none → s.stats.frozen = true ∨ t.stats.frozen = false → t.choices = s.choices) ∧
        (s.storage.state = .absent → t.storage = s.storage) ∧
        (s.storage.state ≠ .absent →
          let age := min 255 (s.storage.age + 1)
          t.storage = { s.storage with
            age := age
            state := if s.storage.state = .online ∧ s.params.telWmax < age then .stale else s.storage.state }) ∧
        (∀ i : StationId,
          let e := s.station i
          let age := min 255 (e.age + 1)
          let late : Bool := decide (s.params.telWmax < age)
          let d := min 255 (e.staleDuration + 1)
          let u : Station := { e with age := age, staleDuration := d }
          let w := s.params.monWindow
          (e.state = .absent → t.station i = e) ∧
          (e.state = .joining ∨ e.state = .faulted ∨ e.state = .parked → t.station i = { e with age := age }) ∧
          (e.state = .online → late = false → t.station i = { e with age := age }) ∧
          (e.state = .online → late = true →
            t.station i =
              { e with
                state := .stale, age := age, staleDuration := 0, interlock := none, ready := false
                applied := match e.interlock with
                  | some r => max e.applied r.granted
                  | none => e.applied } ∧
            (∀ p, (look s.router.routes 2).reaches .stnStale i p = true →
              ∃ x ∈ (look t.router.sets p).entries, x.kind = .stnStale ∧ x.inst = i)) ∧
          (e.state = .stale →
            t.station i =
              if d = s.params.telWdead ∧ e.staleDuration ≠ d then
                { u.afterEvent w .dead with ready := if u.wouldFault w then false else e.ready }
              else u)) ∧
        (let late (i : StationId) : Bool := (s.station i).state == .online &&
           decide (s.params.telWmax < min 255 ((s.station i).age + 1))
         let dead (i : StationId) : Bool := (s.station i).state == .stale &&
           (let d := min 255 ((s.station i).staleDuration + 1)
            d == s.params.telWdead && (s.station i).staleDuration != d)
         s.CountsTogether t (stationIds.flatMap fun i =>
           [match (s.station i).interlock with
            | some r => if late i then [⟨.interlockEnd, r.granted - (s.station i).applied, stationPort i⟩] else []
            | none => [],
            if late i then [⟨.staleEntry, 0, stationPort i⟩] else [],
            if dead i && (s.station i).wouldFault s.params.monWindow then [⟨.faultEntry, 0, stationPort i⟩] else []])) ∧
        (∀ q, t.router.AgreesAt
          (s.router.fired (if s.storage.state = .online ∧ t.storage.state = .stale then 1 else 0) .storeStale 0)
          .storeStale 0 q) ∧
        (∀ i q, s.Notices t i q ∧ s.ReadyNotice t i q) ∧
        s.router.DiffersOnly t.router (fun k _ =>
          k == .raiseReady || k == .stnStale || k == .stnMonitor || k == .storeStale || k == .statsFreeze))

/-- PUBLICATION (R6, R16, R42, R72, R73, R75 to R80, R84, R88, R89, R99, R122, R125, R127, R129, R131, R134, R142,
R145, R169): history, queues and record are committed together; the ramp statuses, scopes and capture follow the run;
the unit makes one accounting step of the run's events; the run's causes fire or end; interlocks are counted and ended
at the deadline; held takes are answered in the order of their list, each against the pool the ones before it left;
raise-ready is found for every station; then the handlers take what they can, nothing where no request waits. With no
run in flight the event changes nothing (read from R3, log entry 4). The source events of the deadlines of
different stations come in any order (R50, R142, log entry 15), a freeze or release finds raise-ready before them (log
entry 16), and the mark of log entry 24 is cleared. The offer field of a held take's FIXED answer is limited to the live
rating in every state; for an entry of the mask still PARKED with a lowered rating, where R75 and R78 differ, that is
the model's choice (log entry 25), not what either rule states. -/
def Obligations.PublicationCommitsRun : Prop :=
  ∀ s : State, (∀ p, (look s.router.sets p).fresh = []) →
    (s.runInFlight = false → exec .publication s = .next s) ∧
    (∀ run : RunInputs, s.engine.run = .inFlight run →
      let x := resultOf run s.engine.queues s.published
      let r := x.record
      let soft : Bool := decide (run.params.tolSoft < x.ramp.d)
      let hard : Bool := decide (run.params.tolHard < x.ramp.d)
      let up : Bool := decide (0 < x.ramp.dUp)
      let counted (n : ScopeId) : Scope :=
        let old := look s.ramp.scopes n
        let runs := if x.ramp.dUp ≤ run.params.tolSoft then min 255 (old.cleanRuns + 1) else 0
        if x.ramp.checked = false ∨ old.frozen = false then old
        else if 0 < run.params.freezeAuto ∧ run.params.freezeAuto ≤ runs then { frozen := false, cleanRuns := 0 }
        else { frozen := true, cleanRuns := runs }
      ∃ t, exec .publication s = .next t.runHandlers ∧
        ((∀ q, (s.port q).requests = []) → t.runHandlers = t) ∧
        t = { s with
              engine := { s.engine with
                run := .running
                history :=
                  ({ number := run.number, sample := x.sample.value, source := x.sample.source,
                     clamped := x.sample.clamped } :: s.engine.history).take 600
                queues := x.queues }
              published := r
              stations := t.stations
              heldTakes := []
              storage := { s.storage with held := none }
              ramp := t.ramp, stats := t.stats, router := t.router, ports := t.ports
              choices := t.choices, lastClear := none } ∧
        (t.ramp.softUp = (s.ramp.softUp || (soft && up)) ∧ t.ramp.softDown = (s.ramp.softDown || (soft && !up)) ∧
         t.ramp.hardUp = (s.ramp.hardUp || (hard && up)) ∧ t.ramp.hardDown = (s.ramp.hardDown || (hard && !up)) ∧
         t.ramp.capture = (match s.ramp.capture with
           | .locked d => .locked d
           | .empty | .loaded _ => if hard then .locked x.capture else .loaded x.capture)) ∧
        (∀ n : ScopeId, look t.ramp.scopes n =
          if x.freezes = some n then { frozen := true, cleanRuns := 0 } else counted n) ∧
        (let met (n : Nat) : TakeView := (s.heldTakes.take n).foldl (fun v h => v.answered h.station)
           { record := r, scopes := t.ramp.scopes
             entries := tabulate fun i => (s.station i).afterDeadline s.params }
         (∀ i, t.station i = { look (met s.heldTakes.length).entries i with ready := t.readyCondition i }) ∧
         ((s.heldTakes.map HeldTake.station).Nodup → ∀ n h, s.heldTakes[n]? = some h →
           let a := (met n).reply s.params h.station
           t.port (stationPort h.station) =
             { s.port (stationPort h.station) with
               handler := .idle
               replies := (s.port (stationPort h.station)).replies ++
                 [{ kind := 4, tag := h.tag, code := a.code, payload := a.payload }] }) ∧
         (let run := s.statPublication x.events r.plant r.collapsed
          let takes := (List.range s.heldTakes.length).flatMap fun n => match s.heldTakes[n]? with
            | some h => (met n).events h.station
            | none => []
          (∃ ends, Interleaves (stationIds.map fun i => (s.station i).deadlineEvents s.params i) ends ∧
            t.stats = (run.statEvents (ends ++ takes)).stats) ∧
          (run.stats.frozen = true ∨ t.stats.frozen = false → t.choices = s.choices))) ∧
        (∀ g, s.storage.held = some g →
          let b := if r.storageOnline then r.b else 0
          t.port storagePort =
            { s.port storagePort with
              handler := .idle
              replies := (s.port storagePort).replies ++
                [{ kind := 7, tag := g
                   code := if s.storage.state = .absent then .refusedState else if r.storageOnline then .ok else .fixed
                   payload := if s.storage.state = .absent then 0
                     else intervalTag r.number ++
                       f8 (r.plant.code + (if r.collapsed then 8 else 0) + 16 * s.storage.state.code +
                         (if b < 0 then 128 else 0)) ++
                       f16 b.natAbs ++
                       f24 (if r.plant = .short then r.shortfall else if r.plant = .excess then r.excess else 0) }] }) ∧
        (∀ i, i ∉ s.heldTakes.map HeldTake.station → t.port (stationPort i) = s.port (stationPort i)) ∧
        (s.storage.held = none → t.port storagePort = s.port storagePort) ∧
        t.port supervisorPort = s.port supervisorPort ∧
        t.router.routes = s.router.routes ∧
        (∀ q,
          let follows (k : CauseKind) (holds : Bool) : Prop :=
            t.router.AgreesAt (if holds then s.router.fire k 0 false else s.router.conditionEnded k 0) k 0 q
          let released : Bool := decide (∃ n, (look s.ramp.scopes n).frozen = true ∧ (counted n).frozen = false)
          let left : Bool := decide (∃ n, (counted n).frozen = true)
          let froze : Bool := decide (∃ n, x.freezes = some n ∧ (counted n).frozen = false)
          (look t.router.sets q).fresh = [] ∧
          t.router.AgreesAt (if soft then s.router.fire .rampSoft 0 false else s.router) .rampSoft 0 q ∧
          t.router.AgreesAt (if hard then s.router.fire .rampHard 0 (!s.ramp.capture.isLocked) else s.router)
            .rampHard 0 q ∧
          t.router.AgreesAt ((s.router.endedIf (released && !left) .freeze 0).fired (if froze then 1 else 0) .freeze 0)
            .freeze 0 q ∧
          follows .collapse r.collapsed ∧ follows .shortfall (decide (0 < r.shortfall)) ∧
          follows .excess (decide (0 < r.excess)) ∧ follows .meterFallback x.sample.fallback ∧
          t.router.AgreesAt s.router .storeStale 0 q ∧
          (∀ i, s.Notices t i q ∧
            ((s.station i).ready = false → (t.station i).ready = true →
              (look s.router.routes 1).reaches .raiseReady i q = true →
              ∃ e ∈ (look t.router.sets q).entries, e.kind = .raiseReady ∧ e.inst = i) ∧
            ((s.station i).ready = true → (t.station i).ready = false →
              ∀ e ∈ (look t.router.sets q).entries, e.kind = .raiseReady → e.inst = i → e.release = .ack))))

/-- The sample of a run (R13, R14, R15): the metered value where SAMPLE_SOURCE is METERED and the slot held a sample of
the run's tag, else the signed sum; clamped to the plant rating, and used clamped in the record and the history. -/
def Obligations.SampleSelectedAndClamped : Prop :=
  ∀ (run : RunInputs) (queues : Extrema) (prev : Published),
    let summed : Int :=
      (sumStations fun i =>
        if (look run.stations i).state = .absent then 0 else (look run.stations i).meas : Nat) +
        (if run.storage.state = .absent then 0 else run.storage.meas)
    let rating : Int := run.params.plantRating
    let holds (raw : Int) (source : SampleSource) : Prop :=
      let s := sampleOf run
      (s.value : Int) = max 0 (min rating raw) ∧ s.source = source ∧
        (s.clamped = true ↔ raw < 0 ∨ rating < raw)
    (∀ m, run.params.sampleSource = .metered → run.meter = some m → m.tag = run.number.truncate 16 →
      holds m.value .metered) ∧
    (run.params.sampleSource = .summed ∨ run.meter = none ∨
        (∃ m, run.meter = some m ∧ m.tag ≠ run.number.truncate 16) → holds summed .summed) ∧
    ((sampleOf run).fallback = true ↔ run.params.sampleSource = .metered ∧ run.meter = none) ∧
    (resultOf run queues prev).record.sample = (sampleOf run).value ∧
    (resultOf run queues prev).entry.sample = (sampleOf run).value ∧
    (resultOf run queues prev).queues = updateExtrema run.params run.number (sampleOf run).value queues ∧
    (resultOf run queues prev).ramp = rampCheck prev (sampleOf run).value

/-- The fronts of queues that hold the survivors of their windows are the windows' extremes (R20). That the queues hold
exactly the survivors is part of `Obligations.EngineLawsKept`. -/
def Obligations.FrontsAreWindowExtremes : Prop :=
  ∀ (x : Params) (history : List HistEntry), history ≠ [] → 1 ≤ x.winShort → 1 ≤ x.winLong →
    let q := windowExtrema x history
    let least (n v : Nat) : Prop := (∃ e ∈ history.take n, e.sample = v) ∧ ∀ e ∈ history.take n, v ≤ e.sample
    let greatest (n v : Nat) : Prop := (∃ e ∈ history.take n, e.sample = v) ∧ ∀ e ∈ history.take n, e.sample ≤ v
    least x.winShort (front q.shortMin) ∧ greatest x.winShort (front q.shortMax) ∧
    least x.winLong (front q.longMin) ∧ greatest x.winLong (front q.longMax)

/-- The envelope from the four fronts, and its collapse (R21, R22). -/
def Obligations.EnvelopeFromFronts : Prop :=
  ∀ (x : Params) (q : Extrema) (minS minL maxS maxL : Nat), front q.shortMin = minS → front q.longMin = minL →
    front q.shortMax = maxS → front q.longMax = maxL →
    ∀ upper lower : Nat,
      (upper = minS + x.limShort ∨ upper = minL + x.limLong ∨ upper = x.plantRating) →
      upper ≤ minS + x.limShort → upper ≤ minL + x.limLong → upper ≤ x.plantRating →
      ((lower : Int) = (maxS : Int) - x.limShort ∨ (lower : Int) = (maxL : Int) - x.limLong ∨ lower = 0) →
      (maxS : Int) - x.limShort ≤ lower → (maxL : Int) - x.limLong ≤ lower →
      (lower ≤ upper → envelopeOf x q = { lower := lower, upper := upper, collapsed := false, gap := 0 }) ∧
      (upper < lower → envelopeOf x q =
        { lower := (lower + upper) / 2, upper := (lower + upper) / 2, collapsed := true, gap := lower - upper })

/-- The dispatch decision and the allowance (R30, R31, R34, R35): the five cases, the bounds of B, the allowance,
shortfall and excess. The record of every run is made by them from the run's snapshot: the forecast (R27), the
effective limits (R28), the preference (R29), the envelope of the updated queues (R21), the ONLINE stations' ratings
(R35), and the fields of R41. -/
def Obligations.DispatchDecision : Prop :=
  (∀ (l u f u0 : Nat) (bPref : Int) (dis chg ratings : Nat), l ≤ u → -(chg : Int) ≤ bPref → bPref ≤ dis →
    let d := decide78 l u f u0 bPref dis chg ratings
    let t : Int := f + bPref
    let room : Int := (u : Int) - d.b - u0
    (l ≤ t → t ≤ u → d.b = bPref ∧ (0 ≤ room → d.plant = .free)) ∧
    (u < t → -(chg : Int) ≤ (u : Int) - f → d.b = (u : Int) - f ∧ (0 ≤ room → d.plant = .absorb)) ∧
    (u < t → (u : Int) - f < -chg → d.b = -chg ∧ (0 ≤ room → d.plant = .curtail)) ∧
    (t < l → (l : Int) - f ≤ dis → d.b = (l : Int) - f ∧ (0 ≤ room → d.plant = .support)) ∧
    (t < l → (dis : Int) < (l : Int) - f →
      d.b = dis ∧ (d.shortfall : Int) = (l : Int) - f - dis ∧ 0 < d.shortfall ∧ (0 ≤ room → d.plant = .short)) ∧
    (l ≤ t ∨ (l : Int) - f ≤ dis → d.shortfall = 0) ∧
    (-(chg : Int) ≤ d.b ∧ d.b ≤ dis) ∧
    (room < 0 → d.plant = .excess ∧ d.allowance = 0 ∧ (d.excess : Int) = -room) ∧
    (0 ≤ room → d.excess = 0 ∧ (d.allowance : Int) = min room ratings) ∧
    (u0 ≤ f → d.shortfall = 0 ∨ d.excess = 0) ∧
    (u0 ≤ f → 0 ≤ room ∨ (u < t ∧ (u : Int) - f < -chg))) ∧
  (∀ (run : RunInputs) (queues : Extrema) (prev : Published),
    let x := resultOf run queues prev
    let e (i : StationId) : StationSnap := look run.stations i
    let battery := run.storage
    let live : Bool := battery.state == .online
    let fc := sumStations fun i => if (e i).state = .online then (e i).avail else 0
    let u0 := sumStations fun i => if (e i).state = .online ∨ (e i).state = .absent then 0 else (e i).meas
    let dis := if live ∧ run.params.socMin < battery.soc then battery.bdis else 0
    let chg := if live ∧ battery.soc < run.params.socMax then battery.bchg else 0
    let cap : Int := run.params.recoveryCap
    let raw : Int := run.params.socGain * ((battery.soc : Int) - run.params.socTarget)
    let bPref : Int := max (-(chg : Int)) (min dis (max (-cap) (min cap raw)))
    let env := envelopeOf run.params x.queues
    let d := decide78 env.lower env.upper (fc + u0) u0 bPref dis chg
      (sumStations fun i => if (e i).state = .online then (e i).rating else 0)
    x.run = run ∧ x.sample = sampleOf run ∧
    x.record =
      { number := run.number, rating := run.params.plantRating, sample := x.sample.value, source := x.sample.source
        clamped := x.sample.clamped, lower := env.lower, upper := env.upper, collapsed := env.collapsed, gap := env.gap
        plant := d.plant, forecast := fc + u0, fc := fc, u0 := u0, storageOnline := live, bPref := bPref, b := d.b
        allowance := d.allowance, shortfall := d.shortfall, excess := d.excess
        mask := tabulate fun i => (e i).state == .online
        offers := offersOf run.stations d.allowance fc })

/-- The offers of every run's record sum exactly to its allowance, every offer is at most its station's rating, and a
station outside the mask is offered 0; the cleared record too (R40). The premise on the snapshot is part of
`Obligations.StationLawsKept`. -/
def Obligations.OffersSumToAllowance : Prop :=
  (∀ (run : RunInputs) (sample : Sample) (q : Extrema),
    (∀ i, (look run.stations i).avail ≤ (look run.stations i).rating) →
    let r := recordOf run sample q
    (∀ i, look r.mask i = true ↔ (look run.stations i).state = .online) ∧
    (sumStations fun i => if look r.mask i then look r.offers i else 0) = r.allowance ∧
    r.allowance ≤ (sumStations fun i => if look r.mask i then (look run.stations i).rating else 0) ∧
    (∀ i, look r.offers i ≤ (look run.stations i).rating) ∧
    (∀ i, look r.mask i = false → look r.offers i = 0) ∧
    (∀ i, look r.mask i = true → r.allowance < r.fc → look r.offers i ≤ (look run.stations i).avail) ∧
    (∀ i, look r.mask i = true → r.fc ≤ r.allowance → (look run.stations i).avail ≤ look r.offers i)) ∧
  (Published.cleared.allowance = 0 ∧
    ∀ i, look Published.cleared.mask i = false ∧ look Published.cleared.offers i = 0)

/-- The shares of the allowance, station by station (R37, R38, R39): the floor of the exact share, and one kilowatt
more for the stations that rank first by remainder, the lower port first among equals. -/
def Obligations.OffersFollowLargestRemainder : Prop :=
  ∀ (stations : Vector StationSnap 10) (a fc : Nat),
    let mask (i : StationId) : Bool := (look stations i).state == .online
    let avail (i : StationId) : Nat := (look stations i).avail
    let spare (i : StationId) : Nat := (look stations i).rating - avail i
    let share (kept numerator : StationId → Nat) (divisor total : Nat) : Prop :=
      ∀ i, mask i = true →
        let leftover := total - sumStations fun j => if mask j then numerator j / divisor else 0
        let before (j : StationId) : Bool := mask j && decide
          (numerator i % divisor < numerator j % divisor ∨
            (numerator i % divisor = numerator j % divisor ∧ j.val < i.val))
        look (offersOf stations a fc) i = kept i + numerator i / divisor +
          (if (sumStations fun j => if before j then 1 else 0) < leftover then 1 else 0)
    let sp := sumStations fun i => if mask i then spare i else 0
    (∀ i, mask i = false → look (offersOf stations a fc) i = 0) ∧
    (a < fc → share (fun _ => 0) (fun i => a * avail i) fc a) ∧
    (fc ≤ a → 0 < sp → share avail (fun i => (a - fc) * spare i) sp (a - fc)) ∧
    (fc ≤ a → sp = 0 → ∀ i, mask i = true → look (offersOf stations a fc) i = avail i)

/-- The compliance check and the responsible station (R121, R124). The station is the ONLINE one furthest above its
applied ceiling, the lower port among equals. The scope a run freezes by HARD_RESPONSE (R125), and what the capture
record loads from a run (R130). That no check is made exactly when the record in force is the cleared
one is read from R121 (log entry 18). -/
def Obligations.RampCheckAndResponsible : Prop :=
  (∀ (prev : Published) (p : Nat),
    (prev.plant = .none → (rampCheck prev p).checked = false ∧ (rampCheck prev p).d = 0 ∧
      (rampCheck prev p).dUp = 0 ∧ (rampCheck prev p).dDn = 0 ∧ (rampCheck prev p).lower = 0 ∧
      (rampCheck prev p).upper = 0) ∧
    (prev.plant ≠ .none → (rampCheck prev p).checked = true ∧ (rampCheck prev p).lower = prev.lower ∧
      (rampCheck prev p).upper = prev.upper ∧ (rampCheck prev p).dUp = (p : Int) - prev.upper ∧
      (rampCheck prev p).dDn = (prev.lower : Int) - p ∧
      ((rampCheck prev p).d : Int) = max (max ((p : Int) - prev.upper) ((prev.lower : Int) - p)) 0)) ∧
  (∀ x : RunResult,
    let candidate (i : StationId) : Prop := (look x.run.stations i).state = .online ∧
      (look x.run.stations i).applied < (look x.run.stations i).meas
    let excess (i : StationId) : Nat := (look x.run.stations i).meas - (look x.run.stations i).applied
    let hardUpward : Prop := x.run.params.tolHard < x.ramp.d ∧ 0 < x.ramp.dUp
    (∀ i e, x.responsible = some (i, e) → hardUpward ∧ candidate i ∧ e = excess i ∧
      ∀ j, candidate j → excess j < excess i ∨ (excess j = excess i ∧ i.val ≤ j.val)) ∧
    (x.responsible = none → ¬ hardUpward ∨ ∀ i, ¬ candidate i) ∧
    (¬ hardUpward → x.freezes = none) ∧
    (hardUpward → x.run.params.hardResponse = .report → x.freezes = none) ∧
    (hardUpward → x.run.params.hardResponse = .freezePlant → x.freezes = some plantScope) ∧
    (hardUpward → x.run.params.hardResponse = .freezeGroup →
      (∀ i e, x.responsible = some (i, e) → x.freezes = some (groupScope (look x.run.stations i).group)) ∧
      (x.responsible = none → x.freezes = some plantScope)) ∧
    x.capture =
      { number := x.run.number, sample := x.sample.value, source := x.sample.source, clamped := x.sample.clamped
        checked := x.ramp.checked, lower := x.ramp.lower, upper := x.ramp.upper, dUp := x.ramp.dUp, dDn := x.ramp.dDn
        forecast := x.record.forecast, fc := x.record.fc, u0 := x.record.u0, bPref := x.record.bPref, b := x.record.b
        allowance := x.record.allowance, shortfall := x.record.shortfall, excess := x.record.excess
        plant := x.record.plant, collapsed := x.record.collapsed
        responsible := x.responsible, frozenScope := x.freezes
        stations := (stationIds.filter fun i => (look x.run.stations i).state != .absent).map fun i =>
          { port := i, state := (look x.run.stations i).state, meas := (look x.run.stations i).meas
            avail := (look x.run.stations i).avail, applied := (look x.run.stations i).applied } })

/-! ### Attention and statistics -/

/-- A firing reaches exactly its destination ports, merges into the entry of its pair or joins at the end (R156, R157),
and an end report removes the CLEAR entries of its pair everywhere (R159). -/
def Obligations.FiringsMergeAndEnd : Prop :=
  ∀ (x : Router) (k : CauseKind) (i : StationId) (locked : Bool) (p : Port), (look x.sets p).fresh = [] →
    let r := look x.routes k.code
    let reached : Prop := r.mask.getLsbD p.val = true ∨ (k.code.val ≤ 2 ∧ r.ownPort = true ∧ p = stationPort i)
    let before := (look x.sets p).entries
    let after := (look (x.fire k i locked).settle.sets p).entries
    let mine (e : PendingEntry) : Bool := e.kind == k && e.inst == i
    (¬ reached → after = before) ∧
    (reached → (∀ e ∈ before, mine e = false) →
      after = before ++ [{ kind := k, inst := i, release := r.release, count := 1, locked := locked }]) ∧
    (reached → (∃ e ∈ before, mine e = true) →
      after = before.map fun e =>
        if mine e then { e with count := min 255 (e.count + 1), locked := e.locked || locked } else e) ∧
    (x.fire k i locked).settle.routes = x.routes ∧
    (look (x.conditionEnded k i).sets p).entries = before.filter fun e => !(mine e && e.release == .clear)

/-- A station- or port-scoped source event (R138, R139, R140, R143, R145): nothing while frozen; else each counter that
selects it adds by its mode modulo 2^40, a wrap sets the overflow flag, and a wrap of a counter with freeze-on-overflow
freezes the unit with STATS-FREEZE. -/
def Obligations.SourceEventsAreCounted : Prop :=
  ∀ (s : State) (x : StatSource) (mag : Nat) (p : Port),
    let c (n : Fin 8) : Counter := look s.stats.counters n
    let passes (n : Fin 8) : Bool := (c n).control.enable && (c n).control.source == x &&
      (c n).control.mask.getLsbD p.val && (if (c n).control.invert then decide (mag < (c n).control.threshold.toNat)
        else decide ((c n).control.threshold.toNat ≤ mag))
    let adds (n : Fin 8) : Nat := if passes n then (if (c n).control.mode = .magnitude then mag else 1) else 0
    let wraps (n : Fin 8) : Prop := 2 ^ 40 ≤ (c n).value.toNat + adds n
    let counted (t : State) : Prop := ∀ n, look t.stats.counters n =
      { c n with value := (c n).value + BitVec.ofNat 40 (adds n)
                 overflow := (c n).overflow || decide (wraps n) }
    (s.stats.frozen = true → s.statEvent x mag p = s) ∧
    (s.stats.frozen = false → (∀ n, wraps n → (c n).control.freezeOnOverflow = false) →
      counted (s.statEvent x mag p) ∧
      s.statEvent x mag p =
        { s with stats := { s.stats with counters := (s.statEvent x mag p).stats.counters } }) ∧
    (s.stats.frozen = false → (∃ n, wraps n ∧ (c n).control.freezeOnOverflow = true) →
      counted (s.statEvent x mag p) ∧
      s.statEvent x mag p =
        { s with
          stats := { s.stats with
            counters := (s.statEvent x mag p).stats.counters, frozen := true
            reason := { manual := false, overflow := true, hard := false } }
          router := s.router.fire .statsFreeze 0 false })

/-- The accounting step of a publication (R141, R142, R144, R146, R147): the run counter and the edge flags always
advance; counters and residency only while not frozen, judged by the edge flags before the step; a hard violation with
FREEZE-ON-HARD, or an overflow with freeze-on-overflow, freezes the unit when the step is complete.
The events a run hands over, each with its magnitude (R46, R122, R134). -/
def Obligations.PublicationIsOneAccountingStep : Prop :=
  (∀ (s : State) (es : RunEvents) (plant : PlantState) (collapsed : Bool), plant ≠ .none →
    let t := s.statPublication es plant collapsed
    let c (n : Fin 8) : Counter := look s.stats.counters n
    let passed (n : Fin 8) : Bool := match es.lookup (c n).control.source with
      | some mag => if (c n).control.invert then decide (mag < (c n).control.threshold.toNat)
          else decide ((c n).control.threshold.toNat ≤ mag)
      | none => false
    let adds (n : Fin 8) : Nat := if (c n).control.enable && passed n then
        (match (c n).control.mode with
        | .occurrence => 1
        | .magnitude => (es.lookup (c n).control.source).getD 0
        | .edge => if (c n).edge then 0 else 1)
      else 0
    let wraps (n : Fin 8) : Prop := 2 ^ 40 ≤ (c n).value.toNat + adds n
    t.stats.runCounter = s.stats.runCounter + 1 ∧
    (∀ n, (look t.stats.counters n).edge =
      if (c n).control.enable ∧ (c n).control.source.code ≤ 9 then passed n else (c n).edge) ∧
    (∀ n, (look t.stats.counters n).control = (c n).control) ∧
    (s.stats.frozen = true →
      (∀ n, (look t.stats.counters n).value = (c n).value ∧ (look t.stats.counters n).overflow = (c n).overflow) ∧
      t.stats.residency = s.stats.residency ∧ t.stats.frozen = true ∧ t.stats.reason = s.stats.reason ∧
      t.router = s.router) ∧
    (s.stats.frozen = false →
      (∀ n, (look t.stats.counters n).value = (c n).value + BitVec.ofNat 40 (adds n) ∧
        (look t.stats.counters n).overflow = ((c n).overflow || decide (wraps n))) ∧
      (∀ n : Fin 7, look t.stats.residency n =
        if n.val = plant.code ∨ (n.val = 6 ∧ collapsed = true) then min 4294967295 (look s.stats.residency n + 1)
        else look s.stats.residency n) ∧
      (let overflowed : Prop := ∃ n, wraps n ∧ (c n).control.freezeOnOverflow = true
       let hard : Prop := s.stats.freezeOnHard = true ∧ (es.lookup .rampHard).isSome = true
       (t.stats.frozen = true ↔ overflowed ∨ hard) ∧
       (overflowed ∨ hard →
        t.stats.reason = { manual := false, overflow := decide overflowed, hard := decide hard } ∧
        t.router = s.router.fire .statsFreeze 0 false)))) ∧
  (∀ x : RunResult,
    let r := x.record
    let occurs (source : StatSource) (holds : Prop) (magnitude : Nat) : Prop :=
      (holds → x.events.lookup source = some magnitude) ∧ (¬ holds → x.events.lookup source = none)
    occurs .run True 0 ∧
    occurs .curtail (r.allowance < r.fc) (r.fc - r.allowance) ∧
    occurs .absorb (r.plant = .absorb ∨ r.plant = .curtail ∨ r.plant = .excess) (r.bPref - r.b).toNat ∧
    occurs .support (r.plant = .support ∨ r.plant = .short) (r.b - r.bPref).toNat ∧
    occurs .shortfall (0 < r.shortfall) r.shortfall ∧ occurs .excess (0 < r.excess) r.excess ∧
    occurs .collapse (r.collapsed = true) r.gap ∧
    occurs .rampSoft (x.run.params.tolSoft < x.ramp.d) x.ramp.d ∧
    occurs .rampHard (x.run.params.tolHard < x.ramp.d) x.ramp.d ∧
    occurs .meterFallback (x.sample.fallback = true) 0 ∧
    ∀ source : StatSource, 10 ≤ source.code → x.events.lookup source = none)

/-! ### Laws -/

/-- A LOCKED capture record changes at no command but POWER_ON or one with which a CAPT-RELEASE can be taken (R131);
while the Statistics Unit is frozen no counter value and no residency counter changes but by PRESET, CLEAR-ALL, an
UNFREEZE or POWER_ON (R145); the published record changes at no command but PUBLICATION, POWER_ON or one with which an
ENG-START or ENG-HALT can be taken (R42, R43). -/
def Obligations.KeptUntilReleased : Prop :=
  ∀ (s t : State) (c : Instr), exec c s = .next t → (∀ selected, c ≠ .powerOn selected) →
    (∀ d, s.ramp.capture = .locked d → s.mayServe c (fun b => b == .captRelease) = false →
      t.ramp.capture = .locked d) ∧
    (s.stats.frozen = true →
      s.mayServe c (fun b => match b with
        | .statCtrl .unfreeze | .statCtrl .clearAll | .statCtrl (.preset _ _) => true
        | _ => false) = false →
      t.stats.residency = s.stats.residency ∧
      ∀ n, (look t.stats.counters n).value = (look s.stats.counters n).value) ∧
    (c ≠ .publication → s.mayServe c (fun b => b == .engStart || b == .engHalt) = false →
      t.published = s.published)

/-- Every law of the state holds at power-on: the base case of the five statements below. -/
def Obligations.LawsHoldAtReset : Prop :=
  State.reset.PortsWf ∧ State.reset.SetsWf ∧ State.reset.StationsWf ∧ State.reset.RecordWf ∧
    State.reset.EngineWf ∧ State.reset.ModesWf

/-- Every step keeps the laws of the ports: queues never longer than their depth, at most 4 answers, one held take a
port, and a handler that is BUSY while its take is held (R77, R99, R168, R169). -/
def Obligations.PortLawsKept : Prop :=
  ∀ s t : State, s.PortsWf → step s = .next t → t.PortsWf

/-- Every step keeps the laws of the pending sets: each (kind, instance) at most once, counts from 1 to 255, the
capture-locked flag on RAMP-HARD entries only (R157). -/
def Obligations.PendingSetLawsKept : Prop :=
  ∀ s t : State, s.SetsWf → step s = .next t → t.SetsWf

/-- Every step keeps the laws of the station entries and of the published record: applied ceilings and stored
avails within the ratings, interlocks only for ONLINE entries, FAULTED exactly while the holding set is not empty, the
envelope in order, the offers summing to the allowance (R23, R31, R35, R40, R48, R51, R65, R70, R71). -/
def Obligations.StationLawsKept : Prop :=
  ∀ s t : State, s.StationsWf → s.RecordWf → step s = .next t → t.StationsWf ∧ t.RecordWf

/-- Every step keeps the parameters in their ranges and pairs, and the engine's laws: interval numbers that rise by
one, and queues that hold exactly what their windows need (R2, R16, R18, R19, R20, R171, R175, R176). -/
def Obligations.EngineLawsKept : Prop :=
  ∀ s t : State, s.EngineWf → step s = .next t → t.EngineWf

/-- Every step keeps the laws between the engine's run state and the other blocks: a stopped timer, cleared record and
no interlock while HALTED, held takes only while a run is in flight, released scopes at count 0, a freeze reason exactly
while the unit is frozen (R1, R8, R77, R87, R99, R129, R145). -/
def Obligations.ModeLawsKept : Prop :=
  ∀ s t : State, s.ModesWf → step s = .next t → t.ModesWf

/-- Every request of a defined kind and action, with every operand at every value, is read back from the request half
that carries it, which passes the CRC check and is neither an idle frame nor a PORT-RESET (R166, R167). -/
def Obligations.RequestHalvesRoundTrip : Prop :=
  ∀ r : Request, r.body.wellFormed = true →
    Request.ofHalf r.half = r ∧ crc16 (halfMessage r.half) = halfCrc r.half ∧
      halfKind r.half ≠ 0 ∧ halfKind r.half ≠ 11
end

