-- ==== Sys2Proof/Laws/State.lean ====
section
/-! SUPPORT. The tables' laws (look, put, tabulate) and one lemma per field per update of the state, all true by
unfolding, so that no later proof unfolds a record update. -/

namespace Sys2Proof

set_option linter.unusedSimpArgs false

@[simp] theorem look_tabulate {α : Type} {n : Nat} (f : Fin n → α) (i : Fin n) : look (tabulate f) i = f i := by
  simp [look, tabulate]

@[simp] theorem look_put {α : Type} {n : Nat} (v : Vector α n) (i j : Fin n) (x : α) :
    look (put v i x) j = if i = j then x else look v j := by
  simp [look, put, Vector.getElem_set, Fin.ext_iff]

@[simp] theorem look_replicate {α : Type} {n : Nat} (x : α) (i : Fin n) : look (Vector.replicate n x) i = x := by
  simp [look]

/-- Two tables with the same entries are one table. -/
theorem table_ext {α : Type} {n : Nat} {v w : Vector α n} (h : ∀ i, look v i = look w i) : v = w := by
  apply Vector.ext
  intro i hi
  exact h ⟨i, hi⟩

@[simp] theorem put_look {α : Type} {n : Nat} (v : Vector α n) (i : Fin n) : put v i (look v i) = v := by
  apply table_ext
  intro j
  simp only [look_put]
  split
  · next h => rw [h]
  · rfl

@[simp] theorem put_put {α : Type} {n : Nat} (v : Vector α n) (i : Fin n) (x y : α) :
    put (put v i x) i y = put v i y := by
  apply table_ext
  intro j
  simp only [look_put]
  split <;> rfl

@[simp] theorem tabulate_look {α : Type} {n : Nat} (v : Vector α n) : tabulate (look v) = v :=
  table_ext fun i => by simp

theorem mem_allPorts (p : Port) : p ∈ allPorts := by revert p; decide

theorem mem_stationIds (i : StationId) : i ∈ stationIds := by revert i; decide

theorem mem_scopeIds (n : ScopeId) : n ∈ scopeIds := by revert n; decide

end Sys2Proof

namespace Sys2Proof.Machine

/-! ### setParams -/

@[simp] theorem setParams_params (s : State) (x : Params) : (s.setParams x).params = x := rfl
@[simp] theorem setParams_engine (s : State) (x : Params) : (s.setParams x).engine = s.engine := rfl
@[simp] theorem setParams_published (s : State) (x : Params) : (s.setParams x).published = s.published := rfl
@[simp] theorem setParams_stations (s : State) (x : Params) : (s.setParams x).stations = s.stations := rfl
@[simp] theorem setParams_heldTakes (s : State) (x : Params) : (s.setParams x).heldTakes = s.heldTakes := rfl
@[simp] theorem setParams_storage (s : State) (x : Params) : (s.setParams x).storage = s.storage := rfl
@[simp] theorem setParams_ramp (s : State) (x : Params) : (s.setParams x).ramp = s.ramp := rfl
@[simp] theorem setParams_stats (s : State) (x : Params) : (s.setParams x).stats = s.stats := rfl
@[simp] theorem setParams_router (s : State) (x : Params) : (s.setParams x).router = s.router := rfl
@[simp] theorem setParams_ports (s : State) (x : Params) : (s.setParams x).ports = s.ports := rfl
@[simp] theorem setParams_choices (s : State) (x : Params) : (s.setParams x).choices = s.choices := rfl
@[simp] theorem setParams_lastClear (s : State) (x : Params) : (s.setParams x).lastClear = s.lastClear := rfl
@[simp] theorem setParams_pending (s : State) (x : Params) : (s.setParams x).pending = s.pending := rfl

/-! ### setEngine -/

@[simp] theorem setEngine_params (s : State) (x : Engine) : (s.setEngine x).params = s.params := rfl
@[simp] theorem setEngine_engine (s : State) (x : Engine) : (s.setEngine x).engine = x := rfl
@[simp] theorem setEngine_published (s : State) (x : Engine) : (s.setEngine x).published = s.published := rfl
@[simp] theorem setEngine_stations (s : State) (x : Engine) : (s.setEngine x).stations = s.stations := rfl
@[simp] theorem setEngine_heldTakes (s : State) (x : Engine) : (s.setEngine x).heldTakes = s.heldTakes := rfl
@[simp] theorem setEngine_storage (s : State) (x : Engine) : (s.setEngine x).storage = s.storage := rfl
@[simp] theorem setEngine_ramp (s : State) (x : Engine) : (s.setEngine x).ramp = s.ramp := rfl
@[simp] theorem setEngine_stats (s : State) (x : Engine) : (s.setEngine x).stats = s.stats := rfl
@[simp] theorem setEngine_router (s : State) (x : Engine) : (s.setEngine x).router = s.router := rfl
@[simp] theorem setEngine_ports (s : State) (x : Engine) : (s.setEngine x).ports = s.ports := rfl
@[simp] theorem setEngine_choices (s : State) (x : Engine) : (s.setEngine x).choices = s.choices := rfl
@[simp] theorem setEngine_lastClear (s : State) (x : Engine) : (s.setEngine x).lastClear = s.lastClear := rfl
@[simp] theorem setEngine_pending (s : State) (x : Engine) : (s.setEngine x).pending = s.pending := rfl

/-! ### setPublished -/

@[simp] theorem setPublished_params (s : State) (x : Published) : (s.setPublished x).params = s.params := rfl
@[simp] theorem setPublished_engine (s : State) (x : Published) : (s.setPublished x).engine = s.engine := rfl
@[simp] theorem setPublished_published (s : State) (x : Published) : (s.setPublished x).published = x := rfl
@[simp] theorem setPublished_stations (s : State) (x : Published) : (s.setPublished x).stations = s.stations := rfl
@[simp] theorem setPublished_heldTakes (s : State) (x : Published) : (s.setPublished x).heldTakes = s.heldTakes := rfl
@[simp] theorem setPublished_storage (s : State) (x : Published) : (s.setPublished x).storage = s.storage := rfl
@[simp] theorem setPublished_ramp (s : State) (x : Published) : (s.setPublished x).ramp = s.ramp := rfl
@[simp] theorem setPublished_stats (s : State) (x : Published) : (s.setPublished x).stats = s.stats := rfl
@[simp] theorem setPublished_router (s : State) (x : Published) : (s.setPublished x).router = s.router := rfl
@[simp] theorem setPublished_ports (s : State) (x : Published) : (s.setPublished x).ports = s.ports := rfl
@[simp] theorem setPublished_choices (s : State) (x : Published) : (s.setPublished x).choices = s.choices := rfl
@[simp] theorem setPublished_lastClear (s : State) (x : Published) : (s.setPublished x).lastClear = s.lastClear := rfl
@[simp] theorem setPublished_pending (s : State) (x : Published) : (s.setPublished x).pending = s.pending := rfl

/-! ### setHeldTakes -/

@[simp] theorem setHeldTakes_params (s : State) (x : List HeldTake) : (s.setHeldTakes x).params = s.params := rfl
@[simp] theorem setHeldTakes_engine (s : State) (x : List HeldTake) : (s.setHeldTakes x).engine = s.engine := rfl
@[simp] theorem setHeldTakes_published (s : State) (x : List HeldTake) : (s.setHeldTakes x).published = s.published := rfl
@[simp] theorem setHeldTakes_stations (s : State) (x : List HeldTake) : (s.setHeldTakes x).stations = s.stations := rfl
@[simp] theorem setHeldTakes_heldTakes (s : State) (x : List HeldTake) : (s.setHeldTakes x).heldTakes = x := rfl
@[simp] theorem setHeldTakes_storage (s : State) (x : List HeldTake) : (s.setHeldTakes x).storage = s.storage := rfl
@[simp] theorem setHeldTakes_ramp (s : State) (x : List HeldTake) : (s.setHeldTakes x).ramp = s.ramp := rfl
@[simp] theorem setHeldTakes_stats (s : State) (x : List HeldTake) : (s.setHeldTakes x).stats = s.stats := rfl
@[simp] theorem setHeldTakes_router (s : State) (x : List HeldTake) : (s.setHeldTakes x).router = s.router := rfl
@[simp] theorem setHeldTakes_ports (s : State) (x : List HeldTake) : (s.setHeldTakes x).ports = s.ports := rfl
@[simp] theorem setHeldTakes_choices (s : State) (x : List HeldTake) : (s.setHeldTakes x).choices = s.choices := rfl
@[simp] theorem setHeldTakes_lastClear (s : State) (x : List HeldTake) : (s.setHeldTakes x).lastClear = s.lastClear := rfl
@[simp] theorem setHeldTakes_pending (s : State) (x : List HeldTake) : (s.setHeldTakes x).pending = s.pending := rfl

/-! ### setStorage -/

@[simp] theorem setStorage_params (s : State) (x : Storage) : (s.setStorage x).params = s.params := rfl
@[simp] theorem setStorage_engine (s : State) (x : Storage) : (s.setStorage x).engine = s.engine := rfl
@[simp] theorem setStorage_published (s : State) (x : Storage) : (s.setStorage x).published = s.published := rfl
@[simp] theorem setStorage_stations (s : State) (x : Storage) : (s.setStorage x).stations = s.stations := rfl
@[simp] theorem setStorage_heldTakes (s : State) (x : Storage) : (s.setStorage x).heldTakes = s.heldTakes := rfl
@[simp] theorem setStorage_storage (s : State) (x : Storage) : (s.setStorage x).storage = x := rfl
@[simp] theorem setStorage_ramp (s : State) (x : Storage) : (s.setStorage x).ramp = s.ramp := rfl
@[simp] theorem setStorage_stats (s : State) (x : Storage) : (s.setStorage x).stats = s.stats := rfl
@[simp] theorem setStorage_router (s : State) (x : Storage) : (s.setStorage x).router = s.router := rfl
@[simp] theorem setStorage_ports (s : State) (x : Storage) : (s.setStorage x).ports = s.ports := rfl
@[simp] theorem setStorage_choices (s : State) (x : Storage) : (s.setStorage x).choices = s.choices := rfl
@[simp] theorem setStorage_lastClear (s : State) (x : Storage) : (s.setStorage x).lastClear = s.lastClear := rfl
@[simp] theorem setStorage_pending (s : State) (x : Storage) : (s.setStorage x).pending = s.pending := rfl

/-! ### setRamp -/

@[simp] theorem setRamp_params (s : State) (x : Ramp) : (s.setRamp x).params = s.params := rfl
@[simp] theorem setRamp_engine (s : State) (x : Ramp) : (s.setRamp x).engine = s.engine := rfl
@[simp] theorem setRamp_published (s : State) (x : Ramp) : (s.setRamp x).published = s.published := rfl
@[simp] theorem setRamp_stations (s : State) (x : Ramp) : (s.setRamp x).stations = s.stations := rfl
@[simp] theorem setRamp_heldTakes (s : State) (x : Ramp) : (s.setRamp x).heldTakes = s.heldTakes := rfl
@[simp] theorem setRamp_storage (s : State) (x : Ramp) : (s.setRamp x).storage = s.storage := rfl
@[simp] theorem setRamp_ramp (s : State) (x : Ramp) : (s.setRamp x).ramp = x := rfl
@[simp] theorem setRamp_stats (s : State) (x : Ramp) : (s.setRamp x).stats = s.stats := rfl
@[simp] theorem setRamp_router (s : State) (x : Ramp) : (s.setRamp x).router = s.router := rfl
@[simp] theorem setRamp_ports (s : State) (x : Ramp) : (s.setRamp x).ports = s.ports := rfl
@[simp] theorem setRamp_choices (s : State) (x : Ramp) : (s.setRamp x).choices = s.choices := rfl
@[simp] theorem setRamp_lastClear (s : State) (x : Ramp) : (s.setRamp x).lastClear = s.lastClear := rfl
@[simp] theorem setRamp_pending (s : State) (x : Ramp) : (s.setRamp x).pending = s.pending := rfl

/-! ### setStats -/

@[simp] theorem setStats_params (s : State) (x : Stats) : (s.setStats x).params = s.params := rfl
@[simp] theorem setStats_engine (s : State) (x : Stats) : (s.setStats x).engine = s.engine := rfl
@[simp] theorem setStats_published (s : State) (x : Stats) : (s.setStats x).published = s.published := rfl
@[simp] theorem setStats_stations (s : State) (x : Stats) : (s.setStats x).stations = s.stations := rfl
@[simp] theorem setStats_heldTakes (s : State) (x : Stats) : (s.setStats x).heldTakes = s.heldTakes := rfl
@[simp] theorem setStats_storage (s : State) (x : Stats) : (s.setStats x).storage = s.storage := rfl
@[simp] theorem setStats_ramp (s : State) (x : Stats) : (s.setStats x).ramp = s.ramp := rfl
@[simp] theorem setStats_stats (s : State) (x : Stats) : (s.setStats x).stats = x := rfl
@[simp] theorem setStats_router (s : State) (x : Stats) : (s.setStats x).router = s.router := rfl
@[simp] theorem setStats_ports (s : State) (x : Stats) : (s.setStats x).ports = s.ports := rfl
@[simp] theorem setStats_choices (s : State) (x : Stats) : (s.setStats x).choices = s.choices := rfl
@[simp] theorem setStats_lastClear (s : State) (x : Stats) : (s.setStats x).lastClear = s.lastClear := rfl
@[simp] theorem setStats_pending (s : State) (x : Stats) : (s.setStats x).pending = s.pending := rfl

/-! ### setRouter -/

@[simp] theorem setRouter_params (s : State) (x : Router) : (s.setRouter x).params = s.params := rfl
@[simp] theorem setRouter_engine (s : State) (x : Router) : (s.setRouter x).engine = s.engine := rfl
@[simp] theorem setRouter_published (s : State) (x : Router) : (s.setRouter x).published = s.published := rfl
@[simp] theorem setRouter_stations (s : State) (x : Router) : (s.setRouter x).stations = s.stations := rfl
@[simp] theorem setRouter_heldTakes (s : State) (x : Router) : (s.setRouter x).heldTakes = s.heldTakes := rfl
@[simp] theorem setRouter_storage (s : State) (x : Router) : (s.setRouter x).storage = s.storage := rfl
@[simp] theorem setRouter_ramp (s : State) (x : Router) : (s.setRouter x).ramp = s.ramp := rfl
@[simp] theorem setRouter_stats (s : State) (x : Router) : (s.setRouter x).stats = s.stats := rfl
@[simp] theorem setRouter_router (s : State) (x : Router) : (s.setRouter x).router = x := rfl
@[simp] theorem setRouter_ports (s : State) (x : Router) : (s.setRouter x).ports = s.ports := rfl
@[simp] theorem setRouter_choices (s : State) (x : Router) : (s.setRouter x).choices = s.choices := rfl
@[simp] theorem setRouter_lastClear (s : State) (x : Router) : (s.setRouter x).lastClear = s.lastClear := rfl
@[simp] theorem setRouter_pending (s : State) (x : Router) : (s.setRouter x).pending = s.pending := rfl

/-! ### setLastClear -/

@[simp] theorem setLastClear_params (s : State) (x : Option StationId) : (s.setLastClear x).params = s.params := rfl
@[simp] theorem setLastClear_engine (s : State) (x : Option StationId) : (s.setLastClear x).engine = s.engine := rfl
@[simp] theorem setLastClear_published (s : State) (x : Option StationId) : (s.setLastClear x).published = s.published := rfl
@[simp] theorem setLastClear_stations (s : State) (x : Option StationId) : (s.setLastClear x).stations = s.stations := rfl
@[simp] theorem setLastClear_heldTakes (s : State) (x : Option StationId) : (s.setLastClear x).heldTakes = s.heldTakes := rfl
@[simp] theorem setLastClear_storage (s : State) (x : Option StationId) : (s.setLastClear x).storage = s.storage := rfl
@[simp] theorem setLastClear_ramp (s : State) (x : Option StationId) : (s.setLastClear x).ramp = s.ramp := rfl
@[simp] theorem setLastClear_stats (s : State) (x : Option StationId) : (s.setLastClear x).stats = s.stats := rfl
@[simp] theorem setLastClear_router (s : State) (x : Option StationId) : (s.setLastClear x).router = s.router := rfl
@[simp] theorem setLastClear_ports (s : State) (x : Option StationId) : (s.setLastClear x).ports = s.ports := rfl
@[simp] theorem setLastClear_choices (s : State) (x : Option StationId) : (s.setLastClear x).choices = s.choices := rfl
@[simp] theorem setLastClear_lastClear (s : State) (x : Option StationId) : (s.setLastClear x).lastClear = x := rfl
@[simp] theorem setLastClear_pending (s : State) (x : Option StationId) : (s.setLastClear x).pending = s.pending := rfl

/-! ### updStation, updStations, updPort, choose -/

@[simp] theorem updStation_params (s : State) (i : StationId) (f : Station → Station) :
    (s.updStation i f).params = s.params := rfl
@[simp] theorem updStations_params (s : State) (f : StationId → Station → Station) :
    (s.updStations f).params = s.params := rfl
@[simp] theorem updPort_params (s : State) (p : Port) (f : PortState → PortState) :
    (s.updPort p f).params = s.params := rfl
@[simp] theorem choose_params (s : State) (n : Nat) : (s.choose n).2.params = s.params := rfl
@[simp] theorem updStation_engine (s : State) (i : StationId) (f : Station → Station) :
    (s.updStation i f).engine = s.engine := rfl
@[simp] theorem updStations_engine (s : State) (f : StationId → Station → Station) :
    (s.updStations f).engine = s.engine := rfl
@[simp] theorem updPort_engine (s : State) (p : Port) (f : PortState → PortState) :
    (s.updPort p f).engine = s.engine := rfl
@[simp] theorem choose_engine (s : State) (n : Nat) : (s.choose n).2.engine = s.engine := rfl
@[simp] theorem updStation_published (s : State) (i : StationId) (f : Station → Station) :
    (s.updStation i f).published = s.published := rfl
@[simp] theorem updStations_published (s : State) (f : StationId → Station → Station) :
    (s.updStations f).published = s.published := rfl
@[simp] theorem updPort_published (s : State) (p : Port) (f : PortState → PortState) :
    (s.updPort p f).published = s.published := rfl
@[simp] theorem choose_published (s : State) (n : Nat) : (s.choose n).2.published = s.published := rfl
@[simp] theorem updPort_stations (s : State) (p : Port) (f : PortState → PortState) :
    (s.updPort p f).stations = s.stations := rfl
@[simp] theorem choose_stations (s : State) (n : Nat) : (s.choose n).2.stations = s.stations := rfl
@[simp] theorem updStation_heldTakes (s : State) (i : StationId) (f : Station → Station) :
    (s.updStation i f).heldTakes = s.heldTakes := rfl
@[simp] theorem updStations_heldTakes (s : State) (f : StationId → Station → Station) :
    (s.updStations f).heldTakes = s.heldTakes := rfl
@[simp] theorem updPort_heldTakes (s : State) (p : Port) (f : PortState → PortState) :
    (s.updPort p f).heldTakes = s.heldTakes := rfl
@[simp] theorem choose_heldTakes (s : State) (n : Nat) : (s.choose n).2.heldTakes = s.heldTakes := rfl
@[simp] theorem updStation_storage (s : State) (i : StationId) (f : Station → Station) :
    (s.updStation i f).storage = s.storage := rfl
@[simp] theorem updStations_storage (s : State) (f : StationId → Station → Station) :
    (s.updStations f).storage = s.storage := rfl
@[simp] theorem updPort_storage (s : State) (p : Port) (f : PortState → PortState) :
    (s.updPort p f).storage = s.storage := rfl
@[simp] theorem choose_storage (s : State) (n : Nat) : (s.choose n).2.storage = s.storage := rfl
@[simp] theorem updStation_ramp (s : State) (i : StationId) (f : Station → Station) :
    (s.updStation i f).ramp = s.ramp := rfl
@[simp] theorem updStations_ramp (s : State) (f : StationId → Station → Station) :
    (s.updStations f).ramp = s.ramp := rfl
@[simp] theorem updPort_ramp (s : State) (p : Port) (f : PortState → PortState) :
    (s.updPort p f).ramp = s.ramp := rfl
@[simp] theorem choose_ramp (s : State) (n : Nat) : (s.choose n).2.ramp = s.ramp := rfl
@[simp] theorem updStation_stats (s : State) (i : StationId) (f : Station → Station) :
    (s.updStation i f).stats = s.stats := rfl
@[simp] theorem updStations_stats (s : State) (f : StationId → Station → Station) :
    (s.updStations f).stats = s.stats := rfl
@[simp] theorem updPort_stats (s : State) (p : Port) (f : PortState → PortState) :
    (s.updPort p f).stats = s.stats := rfl
@[simp] theorem choose_stats (s : State) (n : Nat) : (s.choose n).2.stats = s.stats := rfl
@[simp] theorem updStation_router (s : State) (i : StationId) (f : Station → Station) :
    (s.updStation i f).router = s.router := rfl
@[simp] theorem updStations_router (s : State) (f : StationId → Station → Station) :
    (s.updStations f).router = s.router := rfl
@[simp] theorem updPort_router (s : State) (p : Port) (f : PortState → PortState) :
    (s.updPort p f).router = s.router := rfl
@[simp] theorem choose_router (s : State) (n : Nat) : (s.choose n).2.router = s.router := rfl
@[simp] theorem updStation_ports (s : State) (i : StationId) (f : Station → Station) :
    (s.updStation i f).ports = s.ports := rfl
@[simp] theorem updStations_ports (s : State) (f : StationId → Station → Station) :
    (s.updStations f).ports = s.ports := rfl
@[simp] theorem choose_ports (s : State) (n : Nat) : (s.choose n).2.ports = s.ports := rfl
@[simp] theorem updStation_choices (s : State) (i : StationId) (f : Station → Station) :
    (s.updStation i f).choices = s.choices := rfl
@[simp] theorem updStations_choices (s : State) (f : StationId → Station → Station) :
    (s.updStations f).choices = s.choices := rfl
@[simp] theorem updPort_choices (s : State) (p : Port) (f : PortState → PortState) :
    (s.updPort p f).choices = s.choices := rfl
@[simp] theorem updStation_lastClear (s : State) (i : StationId) (f : Station → Station) :
    (s.updStation i f).lastClear = s.lastClear := rfl
@[simp] theorem updStations_lastClear (s : State) (f : StationId → Station → Station) :
    (s.updStations f).lastClear = s.lastClear := rfl
@[simp] theorem updPort_lastClear (s : State) (p : Port) (f : PortState → PortState) :
    (s.updPort p f).lastClear = s.lastClear := rfl
@[simp] theorem choose_lastClear (s : State) (n : Nat) : (s.choose n).2.lastClear = s.lastClear := rfl
@[simp] theorem updStation_pending (s : State) (i : StationId) (f : Station → Station) :
    (s.updStation i f).pending = s.pending := rfl
@[simp] theorem updStations_pending (s : State) (f : StationId → Station → Station) :
    (s.updStations f).pending = s.pending := rfl
@[simp] theorem updPort_pending (s : State) (p : Port) (f : PortState → PortState) :
    (s.updPort p f).pending = s.pending := rfl
@[simp] theorem choose_pending (s : State) (n : Nat) : (s.choose n).2.pending = s.pending := rfl

@[simp] theorem station_updStation (s : State) (i j : StationId) (f : Station → Station) :
    (s.updStation i f).station j = if i = j then f (s.station i) else s.station j := by
  simp [State.updStation, State.station]

@[simp] theorem station_updStations (s : State) (i : StationId) (f : StationId → Station → Station) :
    (s.updStations f).station i = f i (s.station i) := by
  simp [State.updStations, State.station]

@[simp] theorem port_updPort (s : State) (p q : Port) (f : PortState → PortState) :
    (s.updPort p f).port q = if p = q then f (s.port p) else s.port q := by
  simp [State.updPort, State.port]

/-- A station is read from the stations alone. -/
theorem station_congr {s t : State} (h : s.stations = t.stations) (i : StationId) : s.station i = t.station i := by
  simp [State.station, h]

/-- A port is read from the ports alone. -/
theorem port_congr {s t : State} (h : s.ports = t.ports) (p : Port) : s.port p = t.port p := by
  simp [State.port, h]

/-- A change of a station that changes nothing leaves the state as it is. -/
theorem updStation_self (s : State) (i : StationId) : s.updStation i (fun e => e) = s := by
  simp [State.updStation, State.station]

/-- A change of a port that changes nothing leaves the state as it is. -/
theorem updPort_self (s : State) (p : Port) : s.updPort p (fun x => x) = s := by
  simp [State.updPort, State.port]

/-- Two changes of one port are one change. -/
@[simp] theorem updPort_updPort (s : State) (p : Port) (f g : PortState → PortState) :
    (s.updPort p f).updPort p g = s.updPort p fun x => g (f x) := by
  simp [State.updPort, State.port]

/-- Two changes of one station are one change. -/
@[simp] theorem updStation_updStation (s : State) (i : StationId) (f g : Station → Station) :
    (s.updStation i f).updStation i g = s.updStation i fun e => g (f e) := by
  simp [State.updStation, State.station]

/-! ### What is read from the state -/

@[simp] theorem station_setParams (s : State) (x : Params) (i : StationId) : (s.setParams x).station i = s.station i := rfl
@[simp] theorem port_setParams (s : State) (x : Params) (p : Port) : (s.setParams x).port p = s.port p := rfl
@[simp] theorem halted_setParams (s : State) (x : Params) : (s.setParams x).halted = s.halted := rfl
@[simp] theorem runInFlight_setParams (s : State) (x : Params) : (s.setParams x).runInFlight = s.runInFlight := rfl
@[simp] theorem station_setEngine (s : State) (x : Engine) (i : StationId) : (s.setEngine x).station i = s.station i := rfl
@[simp] theorem port_setEngine (s : State) (x : Engine) (p : Port) : (s.setEngine x).port p = s.port p := rfl
@[simp] theorem station_setPublished (s : State) (x : Published) (i : StationId) : (s.setPublished x).station i = s.station i := rfl
@[simp] theorem port_setPublished (s : State) (x : Published) (p : Port) : (s.setPublished x).port p = s.port p := rfl
@[simp] theorem halted_setPublished (s : State) (x : Published) : (s.setPublished x).halted = s.halted := rfl
@[simp] theorem runInFlight_setPublished (s : State) (x : Published) : (s.setPublished x).runInFlight = s.runInFlight := rfl
@[simp] theorem station_setHeldTakes (s : State) (x : List HeldTake) (i : StationId) : (s.setHeldTakes x).station i = s.station i := rfl
@[simp] theorem port_setHeldTakes (s : State) (x : List HeldTake) (p : Port) : (s.setHeldTakes x).port p = s.port p := rfl
@[simp] theorem halted_setHeldTakes (s : State) (x : List HeldTake) : (s.setHeldTakes x).halted = s.halted := rfl
@[simp] theorem runInFlight_setHeldTakes (s : State) (x : List HeldTake) : (s.setHeldTakes x).runInFlight = s.runInFlight := rfl
@[simp] theorem station_setStorage (s : State) (x : Storage) (i : StationId) : (s.setStorage x).station i = s.station i := rfl
@[simp] theorem port_setStorage (s : State) (x : Storage) (p : Port) : (s.setStorage x).port p = s.port p := rfl
@[simp] theorem halted_setStorage (s : State) (x : Storage) : (s.setStorage x).halted = s.halted := rfl
@[simp] theorem runInFlight_setStorage (s : State) (x : Storage) : (s.setStorage x).runInFlight = s.runInFlight := rfl
@[simp] theorem station_setRamp (s : State) (x : Ramp) (i : StationId) : (s.setRamp x).station i = s.station i := rfl
@[simp] theorem port_setRamp (s : State) (x : Ramp) (p : Port) : (s.setRamp x).port p = s.port p := rfl
@[simp] theorem halted_setRamp (s : State) (x : Ramp) : (s.setRamp x).halted = s.halted := rfl
@[simp] theorem runInFlight_setRamp (s : State) (x : Ramp) : (s.setRamp x).runInFlight = s.runInFlight := rfl
@[simp] theorem station_setStats (s : State) (x : Stats) (i : StationId) : (s.setStats x).station i = s.station i := rfl
@[simp] theorem port_setStats (s : State) (x : Stats) (p : Port) : (s.setStats x).port p = s.port p := rfl
@[simp] theorem halted_setStats (s : State) (x : Stats) : (s.setStats x).halted = s.halted := rfl
@[simp] theorem runInFlight_setStats (s : State) (x : Stats) : (s.setStats x).runInFlight = s.runInFlight := rfl
@[simp] theorem station_setRouter (s : State) (x : Router) (i : StationId) : (s.setRouter x).station i = s.station i := rfl
@[simp] theorem port_setRouter (s : State) (x : Router) (p : Port) : (s.setRouter x).port p = s.port p := rfl
@[simp] theorem halted_setRouter (s : State) (x : Router) : (s.setRouter x).halted = s.halted := rfl
@[simp] theorem runInFlight_setRouter (s : State) (x : Router) : (s.setRouter x).runInFlight = s.runInFlight := rfl
@[simp] theorem station_setLastClear (s : State) (x : Option StationId) (i : StationId) : (s.setLastClear x).station i = s.station i := rfl
@[simp] theorem port_setLastClear (s : State) (x : Option StationId) (p : Port) : (s.setLastClear x).port p = s.port p := rfl
@[simp] theorem halted_setLastClear (s : State) (x : Option StationId) : (s.setLastClear x).halted = s.halted := rfl
@[simp] theorem runInFlight_setLastClear (s : State) (x : Option StationId) : (s.setLastClear x).runInFlight = s.runInFlight := rfl
@[simp] theorem port_updStation (s : State) (i : StationId) (f : Station → Station) (q : Port) : (s.updStation i f).port q = s.port q := rfl
@[simp] theorem halted_updStation (s : State) (i : StationId) (f : Station → Station) : (s.updStation i f).halted = s.halted := rfl
@[simp] theorem runInFlight_updStation (s : State) (i : StationId) (f : Station → Station) : (s.updStation i f).runInFlight = s.runInFlight := rfl
@[simp] theorem port_updStations (s : State) (f : StationId → Station → Station) (q : Port) : (s.updStations f).port q = s.port q := rfl
@[simp] theorem halted_updStations (s : State) (f : StationId → Station → Station) : (s.updStations f).halted = s.halted := rfl
@[simp] theorem runInFlight_updStations (s : State) (f : StationId → Station → Station) : (s.updStations f).runInFlight = s.runInFlight := rfl
@[simp] theorem station_updPort (s : State) (p : Port) (f : PortState → PortState) (j : StationId) : (s.updPort p f).station j = s.station j := rfl
@[simp] theorem halted_updPort (s : State) (p : Port) (f : PortState → PortState) : (s.updPort p f).halted = s.halted := rfl
@[simp] theorem runInFlight_updPort (s : State) (p : Port) (f : PortState → PortState) : (s.updPort p f).runInFlight = s.runInFlight := rfl

/-- HALTED and RUN-IN-FLIGHT are read from the engine alone. -/
theorem halted_congr {s t : State} (h : s.engine = t.engine) : s.halted = t.halted := by
  simp [State.halted, h]

theorem runInFlight_congr {s t : State} (h : s.engine = t.engine) : s.runInFlight = t.runInFlight := by
  simp [State.runInFlight, h]

/-- A walk over all stations keeps what each of its steps keeps. -/
theorem forStations_keeps {α : Type} (g : State → α) (f : State → StationId → State)
    (h : ∀ t i, g (f t i) = g t) (s : State) : g (s.forStations f) = g s := by
  unfold State.forStations
  generalize stationIds = l
  induction l generalizing s with
  | nil => rfl
  | cons i l ih => simp [List.foldl, ih, h]

/-- A walk over all stations keeps a property that each of its steps keeps. -/
theorem forStations_inv (P : State → Prop) (f : State → StationId → State)
    (h : ∀ t i, P t → P (f t i)) (s : State) (hs : P s) : P (s.forStations f) := by
  unfold State.forStations
  generalize stationIds = l
  induction l generalizing s with
  | nil => exact hs
  | cons i l ih => exact ih _ (h _ _ hs)

/-! ### The beginning of an event, and events of the same instant -/

@[simp] theorem nextEvent_eq (s : State) : s.nextEvent = s.setLastClear none := rfl

/-- The list that gives up its head stands between the lists before and behind it. -/
theorem takeNth_some {α : Type} {n : Nat} {ls : List (List α)} {x : α} {rest : List (List α)}
    (h : takeNth n ls = some (x, rest)) : ∃ b l a, ls = b ++ (x :: l) :: a ∧ rest = b ++ l :: a := by
  induction ls generalizing n rest with
  | nil => simp [takeNth] at h
  | cons l ls ih =>
    have later : ∀ {m : Nat} {l' : List α}, (takeNth m ls).map (fun r => (r.1, l' :: r.2)) = some (x, rest) → l' = l →
        ∃ b k a, l :: ls = b ++ (x :: k) :: a ∧ rest = b ++ k :: a := by
      intro m l' h e
      obtain ⟨⟨y, r⟩, hr, e'⟩ := Option.map_eq_some_iff.1 h
      simp only [Prod.mk.injEq] at e'
      obtain ⟨b, k, a, h1, h2⟩ := ih (n := m) (rest := r) (by rw [hr, e'.1])
      exact ⟨l :: b, k, a, by rw [h1]; rfl, by rw [← e'.2, h2, e]; rfl⟩
    cases l with
    | nil => exact later (by rw [takeNth] at h; exact h) rfl
    | cons y l =>
      cases n with
      | zero =>
        rw [takeNth] at h
        simp only [Option.some.injEq, Prod.mk.injEq] at h
        exact ⟨[], l, ls, by rw [h.1]; rfl, by rw [← h.2]; rfl⟩
      | succ n => exact later (by rw [takeNth] at h; exact h) rfl

/-- What is woven comes from one of the lists. -/
theorem mem_weave {α : Type} {ns : List Nat} {ls : List (List α)} {y : α} (h : y ∈ weave ns ls) : y ∈ ls.flatten := by
  induction ns generalizing ls with
  | nil => exact h
  | cons n ns ih =>
    unfold weave at h
    split at h
    · next x rest e =>
      obtain ⟨b, l, a, rfl, rfl⟩ := takeNth_some e
      rcases List.mem_cons.1 h with rfl | h
      · simp
      · have := ih h
        simp only [List.flatten_append, List.flatten_cons, List.mem_append, List.mem_cons] at this ⊢
        tauto
    · simp at h

/-- Parts of one event keep, in every order, a property that each of them keeps and that does not read the count of
free choices. -/
theorem together_inv {α : Type} {P : State → Prop} {act : State → α → State} {parts : List (List α)}
    (free : ∀ t n, P t → P { t with choices := n }) (h : ∀ t, ∀ x ∈ parts.flatten, P t → P (act t x)) (s : State)
    (hs : P s) : P (s.together act parts) := by
  have all : ∀ (order : List α), (∀ x ∈ order, x ∈ parts.flatten) → ∀ t, P t → P (order.foldl act t) := by
    intro order
    induction order with
    | nil => exact fun _ t ht => ht
    | cons x xs ih =>
      exact fun m t ht => ih (fun y hy => m y (List.mem_cons_of_mem _ hy)) _ (h t x (m x (List.mem_cons_self ..)) ht)
  unfold State.together State.chooseOrder
  simp only
  split
  · exact all _ (fun x hx => mem_weave hx) _ (free _ _ hs)
  · exact all _ (fun x hx => hx) _ hs

/-- Parts of one event keep, in every order, what each of them keeps, but for the count of free choices. -/
theorem together_keeps {α β : Type} (g : State → β) (act : State → α → State) (parts : List (List α))
    (free : ∀ t n, g { t with choices := n } = g t) (h : ∀ t x, g (act t x) = g t) (s : State) :
    g (s.together act parts) = g s :=
  together_inv (P := fun t => g t = g s) (fun t n e => (free t n).trans e) (fun t x _ e => (h t x).trans e) s rfl

end Sys2Proof.Machine
end

