-- ==== Sys2Proof/Laws/Frames.lean ====
section
/-! SUPPORT. The frames of the shared operations: for each one, every field of the state it leaves as it was. -/

namespace Sys2Proof.Machine

set_option linter.unusedSimpArgs false
set_option linter.unusedTactic false
set_option linter.unnecessarySeqFocus false

/-- fireFlagged leaves these fields as they were. -/
@[simp] theorem fireFlagged_frame (s : State) (k : CauseKind) (i : StationId) (l : Bool) :
    (s.fireFlagged k i l).params = s.params ∧ (s.fireFlagged k i l).engine = s.engine ∧
    (s.fireFlagged k i l).published = s.published ∧ (s.fireFlagged k i l).stations = s.stations ∧
    (s.fireFlagged k i l).heldTakes = s.heldTakes ∧ (s.fireFlagged k i l).storage = s.storage ∧
    (s.fireFlagged k i l).ramp = s.ramp ∧ (s.fireFlagged k i l).stats = s.stats ∧
    (s.fireFlagged k i l).ports = s.ports ∧ (s.fireFlagged k i l).choices = s.choices ∧
    (s.fireFlagged k i l).lastClear = s.lastClear ∧ (s.fireFlagged k i l).pending = s.pending := by
  refine ⟨?_, ?_⟩ <;> first | rfl | (repeat' constructor)
@[simp] theorem fireFlagged_reads (s : State) (k : CauseKind) (i : StationId) (l : Bool) :
    ((s.fireFlagged k i l).halted = s.halted ∧ (s.fireFlagged k i l).runInFlight = s.runInFlight) ∧
    (∀ j, (s.fireFlagged k i l).station j = s.station j) ∧
    (∀ q, (s.fireFlagged k i l).port q = s.port q) :=
  ⟨⟨halted_congr (by simp), runInFlight_congr (by simp)⟩, fun j => station_congr (by simp) j, fun q => port_congr (by simp) q⟩

/-- fire leaves these fields as they were. -/
@[simp] theorem fire_frame (s : State) (k : CauseKind) (i : StationId) :
    (s.fire k i).params = s.params ∧ (s.fire k i).engine = s.engine ∧ (s.fire k i).published = s.published ∧
    (s.fire k i).stations = s.stations ∧ (s.fire k i).heldTakes = s.heldTakes ∧ (s.fire k i).storage = s.storage ∧
    (s.fire k i).ramp = s.ramp ∧ (s.fire k i).stats = s.stats ∧ (s.fire k i).ports = s.ports ∧
    (s.fire k i).choices = s.choices ∧ (s.fire k i).lastClear = s.lastClear ∧ (s.fire k i).pending = s.pending := by
  refine ⟨?_, ?_⟩ <;> first | rfl | (repeat' constructor)
@[simp] theorem fire_reads (s : State) (k : CauseKind) (i : StationId) :
    ((s.fire k i).halted = s.halted ∧ (s.fire k i).runInFlight = s.runInFlight) ∧
    (∀ j, (s.fire k i).station j = s.station j) ∧
    (∀ q, (s.fire k i).port q = s.port q) :=
  ⟨⟨halted_congr (by simp), runInFlight_congr (by simp)⟩, fun j => station_congr (by simp) j, fun q => port_congr (by simp) q⟩

/-- firePlant leaves these fields as they were. -/
@[simp] theorem firePlant_frame (s : State) (k : CauseKind) :
    (s.firePlant k).params = s.params ∧ (s.firePlant k).engine = s.engine ∧
    (s.firePlant k).published = s.published ∧ (s.firePlant k).stations = s.stations ∧
    (s.firePlant k).heldTakes = s.heldTakes ∧ (s.firePlant k).storage = s.storage ∧ (s.firePlant k).ramp = s.ramp ∧
    (s.firePlant k).stats = s.stats ∧ (s.firePlant k).ports = s.ports ∧ (s.firePlant k).choices = s.choices ∧
    (s.firePlant k).lastClear = s.lastClear ∧ (s.firePlant k).pending = s.pending := by
  refine ⟨?_, ?_⟩ <;> first | rfl | (repeat' constructor)
@[simp] theorem firePlant_reads (s : State) (k : CauseKind) :
    ((s.firePlant k).halted = s.halted ∧ (s.firePlant k).runInFlight = s.runInFlight) ∧
    (∀ j, (s.firePlant k).station j = s.station j) ∧
    (∀ q, (s.firePlant k).port q = s.port q) :=
  ⟨⟨halted_congr (by simp), runInFlight_congr (by simp)⟩, fun j => station_congr (by simp) j, fun q => port_congr (by simp) q⟩

/-- conditionEnded leaves these fields as they were. -/
@[simp] theorem conditionEnded_frame (s : State) (k : CauseKind) (i : StationId) :
    (s.conditionEnded k i).params = s.params ∧ (s.conditionEnded k i).engine = s.engine ∧
    (s.conditionEnded k i).published = s.published ∧ (s.conditionEnded k i).stations = s.stations ∧
    (s.conditionEnded k i).heldTakes = s.heldTakes ∧ (s.conditionEnded k i).storage = s.storage ∧
    (s.conditionEnded k i).ramp = s.ramp ∧ (s.conditionEnded k i).stats = s.stats ∧
    (s.conditionEnded k i).ports = s.ports ∧ (s.conditionEnded k i).choices = s.choices ∧
    (s.conditionEnded k i).lastClear = s.lastClear ∧ (s.conditionEnded k i).pending = s.pending := by
  refine ⟨?_, ?_⟩ <;> first | rfl | (repeat' constructor)
@[simp] theorem conditionEnded_reads (s : State) (k : CauseKind) (i : StationId) :
    ((s.conditionEnded k i).halted = s.halted ∧ (s.conditionEnded k i).runInFlight = s.runInFlight) ∧
    (∀ j, (s.conditionEnded k i).station j = s.station j) ∧
    (∀ q, (s.conditionEnded k i).port q = s.port q) :=
  ⟨⟨halted_congr (by simp), runInFlight_congr (by simp)⟩, fun j => station_congr (by simp) j, fun q => port_congr (by simp) q⟩

/-- endEvent leaves these fields as they were. -/
@[simp] theorem endEvent_frame (s : State) :
    (s.endEvent).params = s.params ∧ (s.endEvent).engine = s.engine ∧ (s.endEvent).published = s.published ∧
    (s.endEvent).stations = s.stations ∧ (s.endEvent).heldTakes = s.heldTakes ∧ (s.endEvent).storage = s.storage ∧
    (s.endEvent).ramp = s.ramp ∧ (s.endEvent).stats = s.stats ∧ (s.endEvent).ports = s.ports ∧
    (s.endEvent).choices = s.choices ∧ (s.endEvent).lastClear = s.lastClear ∧ (s.endEvent).pending = s.pending := by
  refine ⟨?_, ?_⟩ <;> first | rfl | (repeat' constructor)
@[simp] theorem endEvent_reads (s : State) :
    ((s.endEvent).halted = s.halted ∧ (s.endEvent).runInFlight = s.runInFlight) ∧
    (∀ j, (s.endEvent).station j = s.station j) ∧
    (∀ q, (s.endEvent).port q = s.port q) :=
  ⟨⟨halted_congr (by simp), runInFlight_congr (by simp)⟩, fun j => station_congr (by simp) j, fun q => port_congr (by simp) q⟩

/-- fireWhile leaves these fields as they were. -/
@[simp] theorem fireWhile_frame (s : State) (k : CauseKind) (c : Bool) :
    (s.fireWhile k c).params = s.params ∧ (s.fireWhile k c).engine = s.engine ∧
    (s.fireWhile k c).published = s.published ∧ (s.fireWhile k c).stations = s.stations ∧
    (s.fireWhile k c).heldTakes = s.heldTakes ∧ (s.fireWhile k c).storage = s.storage ∧
    (s.fireWhile k c).ramp = s.ramp ∧ (s.fireWhile k c).stats = s.stats ∧ (s.fireWhile k c).ports = s.ports ∧
    (s.fireWhile k c).choices = s.choices ∧ (s.fireWhile k c).lastClear = s.lastClear ∧
    (s.fireWhile k c).pending = s.pending := by
  simp only [State.fireWhile]
  (repeat' split) <;> simp
@[simp] theorem fireWhile_reads (s : State) (k : CauseKind) (c : Bool) :
    ((s.fireWhile k c).halted = s.halted ∧ (s.fireWhile k c).runInFlight = s.runInFlight) ∧
    (∀ j, (s.fireWhile k c).station j = s.station j) ∧
    (∀ q, (s.fireWhile k c).port q = s.port q) :=
  ⟨⟨halted_congr (by simp), runInFlight_congr (by simp)⟩, fun j => station_congr (by simp) j, fun q => port_congr (by simp) q⟩

/-- statFreeze leaves these fields as they were. -/
@[simp] theorem statFreeze_frame (s : State) (why : FreezeReason) :
    (s.statFreeze why).params = s.params ∧ (s.statFreeze why).engine = s.engine ∧
    (s.statFreeze why).published = s.published ∧ (s.statFreeze why).stations = s.stations ∧
    (s.statFreeze why).heldTakes = s.heldTakes ∧ (s.statFreeze why).storage = s.storage ∧
    (s.statFreeze why).ramp = s.ramp ∧ (s.statFreeze why).ports = s.ports ∧
    (s.statFreeze why).choices = s.choices ∧ (s.statFreeze why).lastClear = s.lastClear ∧
    (s.statFreeze why).pending = s.pending := by
  simp only [State.statFreeze]
  (repeat' split) <;> simp
@[simp] theorem statFreeze_reads (s : State) (why : FreezeReason) :
    ((s.statFreeze why).halted = s.halted ∧ (s.statFreeze why).runInFlight = s.runInFlight) ∧
    (∀ j, (s.statFreeze why).station j = s.station j) ∧
    (∀ q, (s.statFreeze why).port q = s.port q) :=
  ⟨⟨halted_congr (by simp), runInFlight_congr (by simp)⟩, fun j => station_congr (by simp) j, fun q => port_congr (by simp) q⟩

/-- statUnfreeze leaves these fields as they were. -/
@[simp] theorem statUnfreeze_frame (s : State) :
    (s.statUnfreeze).params = s.params ∧ (s.statUnfreeze).engine = s.engine ∧
    (s.statUnfreeze).published = s.published ∧ (s.statUnfreeze).stations = s.stations ∧
    (s.statUnfreeze).heldTakes = s.heldTakes ∧ (s.statUnfreeze).storage = s.storage ∧
    (s.statUnfreeze).ramp = s.ramp ∧ (s.statUnfreeze).ports = s.ports ∧ (s.statUnfreeze).choices = s.choices ∧
    (s.statUnfreeze).lastClear = s.lastClear ∧ (s.statUnfreeze).pending = s.pending := by
  simp only [State.statUnfreeze]
  (repeat' split) <;> simp
@[simp] theorem statUnfreeze_reads (s : State) :
    ((s.statUnfreeze).halted = s.halted ∧ (s.statUnfreeze).runInFlight = s.runInFlight) ∧
    (∀ j, (s.statUnfreeze).station j = s.station j) ∧
    (∀ q, (s.statUnfreeze).port q = s.port q) :=
  ⟨⟨halted_congr (by simp), runInFlight_congr (by simp)⟩, fun j => station_congr (by simp) j, fun q => port_congr (by simp) q⟩

/-- statClearAll leaves these fields as they were. -/
@[simp] theorem statClearAll_frame (s : State) :
    (s.statClearAll).params = s.params ∧ (s.statClearAll).engine = s.engine ∧
    (s.statClearAll).published = s.published ∧ (s.statClearAll).stations = s.stations ∧
    (s.statClearAll).heldTakes = s.heldTakes ∧ (s.statClearAll).storage = s.storage ∧
    (s.statClearAll).ramp = s.ramp ∧ (s.statClearAll).ports = s.ports ∧ (s.statClearAll).choices = s.choices ∧
    (s.statClearAll).lastClear = s.lastClear ∧ (s.statClearAll).pending = s.pending := by
  simp [State.statClearAll]
@[simp] theorem statClearAll_reads (s : State) :
    ((s.statClearAll).halted = s.halted ∧ (s.statClearAll).runInFlight = s.runInFlight) ∧
    (∀ j, (s.statClearAll).station j = s.station j) ∧
    (∀ q, (s.statClearAll).port q = s.port q) :=
  ⟨⟨halted_congr (by simp), runInFlight_congr (by simp)⟩, fun j => station_congr (by simp) j, fun q => port_congr (by simp) q⟩

/-- statEvent leaves these fields as they were. -/
@[simp] theorem statEvent_frame (s : State) (x : StatSource) (m : Nat) (p : Port) :
    (s.statEvent x m p).params = s.params ∧ (s.statEvent x m p).engine = s.engine ∧
    (s.statEvent x m p).published = s.published ∧ (s.statEvent x m p).stations = s.stations ∧
    (s.statEvent x m p).heldTakes = s.heldTakes ∧ (s.statEvent x m p).storage = s.storage ∧
    (s.statEvent x m p).ramp = s.ramp ∧ (s.statEvent x m p).ports = s.ports ∧
    (s.statEvent x m p).choices = s.choices ∧ (s.statEvent x m p).lastClear = s.lastClear ∧
    (s.statEvent x m p).pending = s.pending := by
  simp only [State.statEvent]
  (repeat' split) <;> simp
@[simp] theorem statEvent_reads (s : State) (x : StatSource) (m : Nat) (p : Port) :
    ((s.statEvent x m p).halted = s.halted ∧ (s.statEvent x m p).runInFlight = s.runInFlight) ∧
    (∀ j, (s.statEvent x m p).station j = s.station j) ∧
    (∀ q, (s.statEvent x m p).port q = s.port q) :=
  ⟨⟨halted_congr (by simp), runInFlight_congr (by simp)⟩, fun j => station_congr (by simp) j, fun q => port_congr (by simp) q⟩

/-- statPublication leaves these fields as they were. -/
@[simp] theorem statPublication_frame (s : State) (es : RunEvents) (a : PlantState) (c : Bool) :
    (s.statPublication es a c).params = s.params ∧ (s.statPublication es a c).engine = s.engine ∧
    (s.statPublication es a c).published = s.published ∧ (s.statPublication es a c).stations = s.stations ∧
    (s.statPublication es a c).heldTakes = s.heldTakes ∧ (s.statPublication es a c).storage = s.storage ∧
    (s.statPublication es a c).ramp = s.ramp ∧ (s.statPublication es a c).ports = s.ports ∧
    (s.statPublication es a c).choices = s.choices ∧ (s.statPublication es a c).lastClear = s.lastClear ∧
    (s.statPublication es a c).pending = s.pending := by
  simp only [State.statPublication]
  (repeat' split) <;> simp
@[simp] theorem statPublication_reads (s : State) (es : RunEvents) (a : PlantState) (c : Bool) :
    ((s.statPublication es a c).halted = s.halted ∧ (s.statPublication es a c).runInFlight = s.runInFlight) ∧
    (∀ j, (s.statPublication es a c).station j = s.station j) ∧
    (∀ q, (s.statPublication es a c).port q = s.port q) :=
  ⟨⟨halted_congr (by simp), runInFlight_congr (by simp)⟩, fun j => station_congr (by simp) j, fun q => port_congr (by simp) q⟩

/-- filterOne leaves these fields as they were. -/
@[simp] theorem filterOne_frame (s : State) (p : Port) (k t : Byte) (n : Fin 2) :
    (s.filterOne p k t n).params = s.params ∧ (s.filterOne p k t n).engine = s.engine ∧
    (s.filterOne p k t n).published = s.published ∧ (s.filterOne p k t n).stations = s.stations ∧
    (s.filterOne p k t n).heldTakes = s.heldTakes ∧ (s.filterOne p k t n).storage = s.storage ∧
    (s.filterOne p k t n).ramp = s.ramp ∧ (s.filterOne p k t n).ports = s.ports ∧
    (s.filterOne p k t n).choices = s.choices ∧ (s.filterOne p k t n).lastClear = s.lastClear ∧
    (s.filterOne p k t n).pending = s.pending := by
  simp only [State.filterOne]
  (repeat' split) <;> simp
@[simp] theorem filterOne_reads (s : State) (p : Port) (k t : Byte) (n : Fin 2) :
    ((s.filterOne p k t n).halted = s.halted ∧ (s.filterOne p k t n).runInFlight = s.runInFlight) ∧
    (∀ j, (s.filterOne p k t n).station j = s.station j) ∧
    (∀ q, (s.filterOne p k t n).port q = s.port q) :=
  ⟨⟨halted_congr (by simp), runInFlight_congr (by simp)⟩, fun j => station_congr (by simp) j, fun q => port_congr (by simp) q⟩

/-- filterFrame leaves these fields as they were. -/
@[simp] theorem filterFrame_frame (s : State) (p : Port) (k t : Byte) :
    (s.filterFrame p k t).params = s.params ∧ (s.filterFrame p k t).engine = s.engine ∧
    (s.filterFrame p k t).published = s.published ∧ (s.filterFrame p k t).stations = s.stations ∧
    (s.filterFrame p k t).heldTakes = s.heldTakes ∧ (s.filterFrame p k t).storage = s.storage ∧
    (s.filterFrame p k t).ramp = s.ramp ∧ (s.filterFrame p k t).ports = s.ports ∧
    (s.filterFrame p k t).lastClear = s.lastClear ∧ (s.filterFrame p k t).pending = s.pending := by
  simp only [State.filterFrame]
  refine together_inv (P := fun t => t.params = s.params ∧ t.engine = s.engine ∧ t.published = s.published ∧ t.stations = s.stations ∧ t.heldTakes = s.heldTakes ∧ t.storage = s.storage ∧ t.ramp = s.ramp ∧ t.ports = s.ports ∧ t.lastClear = s.lastClear ∧ t.pending = s.pending) (fun t n h => h) ?_ _ (by simp)
  intro t x _ h
  simpa using h
@[simp] theorem filterFrame_reads (s : State) (p : Port) (k t : Byte) :
    ((s.filterFrame p k t).halted = s.halted ∧ (s.filterFrame p k t).runInFlight = s.runInFlight) ∧
    (∀ j, (s.filterFrame p k t).station j = s.station j) ∧
    (∀ q, (s.filterFrame p k t).port q = s.port q) :=
  ⟨⟨halted_congr (by simp), runInFlight_congr (by simp)⟩, fun j => station_congr (by simp) j, fun q => port_congr (by simp) q⟩

/-- evalReady leaves these fields as they were. -/
@[simp] theorem evalReady_frame (s : State) (i : StationId) :
    (s.evalReady i).params = s.params ∧ (s.evalReady i).engine = s.engine ∧
    (s.evalReady i).published = s.published ∧ (s.evalReady i).heldTakes = s.heldTakes ∧
    (s.evalReady i).storage = s.storage ∧ (s.evalReady i).ramp = s.ramp ∧ (s.evalReady i).stats = s.stats ∧
    (s.evalReady i).ports = s.ports ∧ (s.evalReady i).choices = s.choices ∧
    (s.evalReady i).lastClear = s.lastClear ∧ (s.evalReady i).pending = s.pending := by
  simp only [State.evalReady]
  (repeat' split) <;> simp
@[simp] theorem evalReady_reads (s : State) (i : StationId) :
    ((s.evalReady i).halted = s.halted ∧ (s.evalReady i).runInFlight = s.runInFlight) ∧
    (∀ q, (s.evalReady i).port q = s.port q) :=
  ⟨⟨halted_congr (by simp), runInFlight_congr (by simp)⟩, fun q => port_congr (by simp) q⟩

/-- evalReadyAll leaves these fields as they were. -/
@[simp] theorem evalReadyAll_frame (s : State) :
    (s.evalReadyAll).params = s.params ∧ (s.evalReadyAll).engine = s.engine ∧
    (s.evalReadyAll).published = s.published ∧ (s.evalReadyAll).heldTakes = s.heldTakes ∧
    (s.evalReadyAll).storage = s.storage ∧ (s.evalReadyAll).ramp = s.ramp ∧ (s.evalReadyAll).stats = s.stats ∧
    (s.evalReadyAll).ports = s.ports ∧ (s.evalReadyAll).choices = s.choices ∧
    (s.evalReadyAll).lastClear = s.lastClear ∧ (s.evalReadyAll).pending = s.pending := by
  simp only [State.evalReadyAll]
  refine forStations_inv (fun t => t.params = s.params ∧ t.engine = s.engine ∧ t.published = s.published ∧ t.heldTakes = s.heldTakes ∧ t.storage = s.storage ∧ t.ramp = s.ramp ∧ t.stats = s.stats ∧ t.ports = s.ports ∧ t.choices = s.choices ∧ t.lastClear = s.lastClear ∧ t.pending = s.pending) _ ?_ _ (by simp)
  intro t i h
  simpa using h
@[simp] theorem evalReadyAll_reads (s : State) :
    ((s.evalReadyAll).halted = s.halted ∧ (s.evalReadyAll).runInFlight = s.runInFlight) ∧
    (∀ q, (s.evalReadyAll).port q = s.port q) :=
  ⟨⟨halted_congr (by simp), runInFlight_congr (by simp)⟩, fun q => port_congr (by simp) q⟩

/-- endRecord leaves these fields as they were. -/
@[simp] theorem endRecord_frame (s : State) (i : StationId) :
    (s.endRecord i).params = s.params ∧ (s.endRecord i).engine = s.engine ∧
    (s.endRecord i).published = s.published ∧ (s.endRecord i).heldTakes = s.heldTakes ∧
    (s.endRecord i).storage = s.storage ∧ (s.endRecord i).ramp = s.ramp ∧ (s.endRecord i).ports = s.ports ∧
    (s.endRecord i).choices = s.choices ∧ (s.endRecord i).lastClear = s.lastClear ∧
    (s.endRecord i).pending = s.pending := by
  simp only [State.endRecord]
  (repeat' split) <;> simp
@[simp] theorem endRecord_reads (s : State) (i : StationId) :
    ((s.endRecord i).halted = s.halted ∧ (s.endRecord i).runInFlight = s.runInFlight) ∧
    (∀ q, (s.endRecord i).port q = s.port q) :=
  ⟨⟨halted_congr (by simp), runInFlight_congr (by simp)⟩, fun q => port_congr (by simp) q⟩

/-- cancelInterlock leaves these fields as they were. -/
@[simp] theorem cancelInterlock_frame (s : State) (i : StationId) :
    (s.cancelInterlock i).params = s.params ∧ (s.cancelInterlock i).engine = s.engine ∧
    (s.cancelInterlock i).published = s.published ∧ (s.cancelInterlock i).heldTakes = s.heldTakes ∧
    (s.cancelInterlock i).storage = s.storage ∧ (s.cancelInterlock i).ramp = s.ramp ∧
    (s.cancelInterlock i).ports = s.ports ∧ (s.cancelInterlock i).choices = s.choices ∧
    (s.cancelInterlock i).lastClear = s.lastClear ∧ (s.cancelInterlock i).pending = s.pending := by
  simp only [State.cancelInterlock]
  (repeat' split) <;> simp
@[simp] theorem cancelInterlock_reads (s : State) (i : StationId) :
    ((s.cancelInterlock i).halted = s.halted ∧ (s.cancelInterlock i).runInFlight = s.runInFlight) ∧
    (∀ q, (s.cancelInterlock i).port q = s.port q) :=
  ⟨⟨halted_congr (by simp), runInFlight_congr (by simp)⟩, fun q => port_congr (by simp) q⟩

/-- setEntryState leaves these fields as they were. -/
@[simp] theorem setEntryState_frame (s : State) (i : StationId) (x : StationState) :
    (s.setEntryState i x).params = s.params ∧ (s.setEntryState i x).engine = s.engine ∧
    (s.setEntryState i x).published = s.published ∧ (s.setEntryState i x).heldTakes = s.heldTakes ∧
    (s.setEntryState i x).storage = s.storage ∧ (s.setEntryState i x).ramp = s.ramp ∧
    (s.setEntryState i x).ports = s.ports ∧ (s.setEntryState i x).choices = s.choices ∧
    (s.setEntryState i x).lastClear = s.lastClear ∧ (s.setEntryState i x).pending = s.pending := by
  simp only [State.setEntryState]
  (repeat' split) <;> simp
@[simp] theorem setEntryState_reads (s : State) (i : StationId) (x : StationState) :
    ((s.setEntryState i x).halted = s.halted ∧ (s.setEntryState i x).runInFlight = s.runInFlight) ∧
    (∀ q, (s.setEntryState i x).port q = s.port q) :=
  ⟨⟨halted_congr (by simp), runInFlight_congr (by simp)⟩, fun q => port_congr (by simp) q⟩

/-- enterJoining leaves these fields as they were. -/
@[simp] theorem enterJoining_frame (s : State) (i : StationId) :
    (s.enterJoining i).params = s.params ∧ (s.enterJoining i).engine = s.engine ∧
    (s.enterJoining i).published = s.published ∧ (s.enterJoining i).heldTakes = s.heldTakes ∧
    (s.enterJoining i).storage = s.storage ∧ (s.enterJoining i).ramp = s.ramp ∧
    (s.enterJoining i).ports = s.ports ∧ (s.enterJoining i).choices = s.choices ∧
    (s.enterJoining i).lastClear = s.lastClear ∧ (s.enterJoining i).pending = s.pending := by
  simp [State.enterJoining]
@[simp] theorem enterJoining_reads (s : State) (i : StationId) :
    ((s.enterJoining i).halted = s.halted ∧ (s.enterJoining i).runInFlight = s.runInFlight) ∧
    (∀ q, (s.enterJoining i).port q = s.port q) :=
  ⟨⟨halted_congr (by simp), runInFlight_congr (by simp)⟩, fun q => port_congr (by simp) q⟩

/-- resetEntry leaves these fields as they were. -/
@[simp] theorem resetEntry_frame (s : State) (i : StationId) :
    (s.resetEntry i).params = s.params ∧ (s.resetEntry i).engine = s.engine ∧
    (s.resetEntry i).published = s.published ∧ (s.resetEntry i).heldTakes = s.heldTakes ∧
    (s.resetEntry i).storage = s.storage ∧ (s.resetEntry i).ramp = s.ramp ∧ (s.resetEntry i).ports = s.ports ∧
    (s.resetEntry i).choices = s.choices ∧ (s.resetEntry i).lastClear = s.lastClear ∧
    (s.resetEntry i).pending = s.pending := by
  simp only [State.resetEntry]
  (repeat' split) <;> simp
@[simp] theorem resetEntry_reads (s : State) (i : StationId) :
    ((s.resetEntry i).halted = s.halted ∧ (s.resetEntry i).runInFlight = s.runInFlight) ∧
    (∀ q, (s.resetEntry i).port q = s.port q) :=
  ⟨⟨halted_congr (by simp), runInFlight_congr (by simp)⟩, fun q => port_congr (by simp) q⟩

/-- latchStatus leaves these fields as they were. -/
@[simp] theorem latchStatus_frame (s : State) (i : StationId) (ev : MonEvent) :
    (s.latchStatus i ev).params = s.params ∧ (s.latchStatus i ev).engine = s.engine ∧
    (s.latchStatus i ev).published = s.published ∧ (s.latchStatus i ev).heldTakes = s.heldTakes ∧
    (s.latchStatus i ev).storage = s.storage ∧ (s.latchStatus i ev).ramp = s.ramp ∧
    (s.latchStatus i ev).stats = s.stats ∧ (s.latchStatus i ev).ports = s.ports ∧
    (s.latchStatus i ev).choices = s.choices ∧ (s.latchStatus i ev).lastClear = s.lastClear ∧
    (s.latchStatus i ev).pending = s.pending := by
  simp only [State.latchStatus]
  (repeat' split) <;> simp
@[simp] theorem latchStatus_reads (s : State) (i : StationId) (ev : MonEvent) :
    ((s.latchStatus i ev).halted = s.halted ∧ (s.latchStatus i ev).runInFlight = s.runInFlight) ∧
    (∀ q, (s.latchStatus i ev).port q = s.port q) :=
  ⟨⟨halted_congr (by simp), runInFlight_congr (by simp)⟩, fun q => port_congr (by simp) q⟩

/-- faultEntry leaves these fields as they were. -/
@[simp] theorem faultEntry_frame (s : State) (i : StationId) :
    (s.faultEntry i).params = s.params ∧ (s.faultEntry i).engine = s.engine ∧
    (s.faultEntry i).published = s.published ∧ (s.faultEntry i).heldTakes = s.heldTakes ∧
    (s.faultEntry i).storage = s.storage ∧ (s.faultEntry i).ramp = s.ramp ∧ (s.faultEntry i).ports = s.ports ∧
    (s.faultEntry i).choices = s.choices ∧ (s.faultEntry i).lastClear = s.lastClear ∧
    (s.faultEntry i).pending = s.pending := by
  simp only [State.faultEntry]
  (repeat' split) <;> simp
@[simp] theorem faultEntry_reads (s : State) (i : StationId) :
    ((s.faultEntry i).halted = s.halted ∧ (s.faultEntry i).runInFlight = s.runInFlight) ∧
    (∀ q, (s.faultEntry i).port q = s.port q) :=
  ⟨⟨halted_congr (by simp), runInFlight_congr (by simp)⟩, fun q => port_congr (by simp) q⟩

/-- monitorEvent leaves these fields as they were. -/
@[simp] theorem monitorEvent_frame (s : State) (i : StationId) (ev : MonEvent) :
    (s.monitorEvent i ev).params = s.params ∧ (s.monitorEvent i ev).engine = s.engine ∧
    (s.monitorEvent i ev).published = s.published ∧ (s.monitorEvent i ev).heldTakes = s.heldTakes ∧
    (s.monitorEvent i ev).storage = s.storage ∧ (s.monitorEvent i ev).ramp = s.ramp ∧
    (s.monitorEvent i ev).ports = s.ports ∧ (s.monitorEvent i ev).choices = s.choices ∧
    (s.monitorEvent i ev).lastClear = s.lastClear ∧ (s.monitorEvent i ev).pending = s.pending := by
  simp only [State.monitorEvent]
  (repeat' split) <;> simp
@[simp] theorem monitorEvent_reads (s : State) (i : StationId) (ev : MonEvent) :
    ((s.monitorEvent i ev).halted = s.halted ∧ (s.monitorEvent i ev).runInFlight = s.runInFlight) ∧
    (∀ q, (s.monitorEvent i ev).port q = s.port q) :=
  ⟨⟨halted_congr (by simp), runInFlight_congr (by simp)⟩, fun q => port_congr (by simp) q⟩

/-- respondEnd leaves these fields as they were. -/
@[simp] theorem respondEnd_frame (s : State) (i : StationId) (ev : MonEvent) :
    (s.respondEnd i ev).params = s.params ∧ (s.respondEnd i ev).engine = s.engine ∧
    (s.respondEnd i ev).published = s.published ∧ (s.respondEnd i ev).heldTakes = s.heldTakes ∧
    (s.respondEnd i ev).storage = s.storage ∧ (s.respondEnd i ev).ramp = s.ramp ∧
    (s.respondEnd i ev).ports = s.ports ∧ (s.respondEnd i ev).choices = s.choices ∧
    (s.respondEnd i ev).lastClear = s.lastClear ∧ (s.respondEnd i ev).pending = s.pending := by
  simp [State.respondEnd]
@[simp] theorem respondEnd_reads (s : State) (i : StationId) (ev : MonEvent) :
    ((s.respondEnd i ev).halted = s.halted ∧ (s.respondEnd i ev).runInFlight = s.runInFlight) ∧
    (∀ q, (s.respondEnd i ev).port q = s.port q) :=
  ⟨⟨halted_congr (by simp), runInFlight_congr (by simp)⟩, fun q => port_congr (by simp) q⟩

/-- breakInterlock leaves these fields as they were. -/
@[simp] theorem breakInterlock_frame (s : State) (i : StationId) (ev : MonEvent) :
    (s.breakInterlock i ev).params = s.params ∧ (s.breakInterlock i ev).engine = s.engine ∧
    (s.breakInterlock i ev).published = s.published ∧ (s.breakInterlock i ev).heldTakes = s.heldTakes ∧
    (s.breakInterlock i ev).storage = s.storage ∧ (s.breakInterlock i ev).ramp = s.ramp ∧
    (s.breakInterlock i ev).ports = s.ports ∧ (s.breakInterlock i ev).choices = s.choices ∧
    (s.breakInterlock i ev).lastClear = s.lastClear ∧ (s.breakInterlock i ev).pending = s.pending := by
  simp only [State.breakInterlock]
  (repeat' split) <;> simp
@[simp] theorem breakInterlock_reads (s : State) (i : StationId) (ev : MonEvent) :
    ((s.breakInterlock i ev).halted = s.halted ∧ (s.breakInterlock i ev).runInFlight = s.runInFlight) ∧
    (∀ q, (s.breakInterlock i ev).port q = s.port q) :=
  ⟨⟨halted_congr (by simp), runInFlight_congr (by simp)⟩, fun q => port_congr (by simp) q⟩

/-- The taking of a request leaves the state, or ends an open interlock with INTERLOCK-ERR (R74). -/
theorem endAtTaking_eq (s : State) (i : StationId) (b : Body) :
    s.endAtTaking i b = s ∨ s.endAtTaking i b = s.breakInterlock i .interlockErr := by
  cases b <;> first | exact Or.inl rfl | exact Or.inr rfl

/-- endAtTaking leaves these fields as they were. -/
@[simp] theorem endAtTaking_frame (s : State) (i : StationId) (b : Body) :
    (s.endAtTaking i b).params = s.params ∧ (s.endAtTaking i b).engine = s.engine ∧
    (s.endAtTaking i b).published = s.published ∧ (s.endAtTaking i b).heldTakes = s.heldTakes ∧
    (s.endAtTaking i b).storage = s.storage ∧ (s.endAtTaking i b).ramp = s.ramp ∧
    (s.endAtTaking i b).ports = s.ports ∧ (s.endAtTaking i b).choices = s.choices ∧
    (s.endAtTaking i b).lastClear = s.lastClear ∧ (s.endAtTaking i b).pending = s.pending := by
  rcases endAtTaking_eq s i b with h | h <;> rw [h] <;> simp
@[simp] theorem endAtTaking_reads (s : State) (i : StationId) (b : Body) :
    ((s.endAtTaking i b).halted = s.halted ∧ (s.endAtTaking i b).runInFlight = s.runInFlight) ∧
    (∀ q, (s.endAtTaking i b).port q = s.port q) :=
  ⟨⟨halted_congr (by simp), runInFlight_congr (by simp)⟩, fun q => port_congr (by simp) q⟩

/-- judgeEvent leaves these fields as they were. -/
@[simp] theorem judgeEvent_frame (s : State) (i : StationId) (h : Bool) (ev : MonEvent) :
    (s.judgeEvent i h ev).params = s.params ∧ (s.judgeEvent i h ev).engine = s.engine ∧
    (s.judgeEvent i h ev).published = s.published ∧ (s.judgeEvent i h ev).heldTakes = s.heldTakes ∧
    (s.judgeEvent i h ev).storage = s.storage ∧ (s.judgeEvent i h ev).ramp = s.ramp ∧
    (s.judgeEvent i h ev).stats = s.stats ∧ (s.judgeEvent i h ev).ports = s.ports ∧
    (s.judgeEvent i h ev).choices = s.choices ∧ (s.judgeEvent i h ev).lastClear = s.lastClear ∧
    (s.judgeEvent i h ev).pending = s.pending := by
  simp only [State.judgeEvent]
  (repeat' split) <;> simp
@[simp] theorem judgeEvent_reads (s : State) (i : StationId) (h : Bool) (ev : MonEvent) :
    ((s.judgeEvent i h ev).halted = s.halted ∧ (s.judgeEvent i h ev).runInFlight = s.runInFlight) ∧
    (∀ q, (s.judgeEvent i h ev).port q = s.port q) :=
  ⟨⟨halted_congr (by simp), runInFlight_congr (by simp)⟩, fun q => port_congr (by simp) q⟩

/-- judgeReport leaves these fields as they were. -/
@[simp] theorem judgeReport_frame (s : State) (i : StationId) (r : ReportView) :
    (s.judgeReport i r).params = s.params ∧ (s.judgeReport i r).engine = s.engine ∧
    (s.judgeReport i r).published = s.published ∧ (s.judgeReport i r).heldTakes = s.heldTakes ∧
    (s.judgeReport i r).storage = s.storage ∧ (s.judgeReport i r).ramp = s.ramp ∧
    (s.judgeReport i r).ports = s.ports ∧ (s.judgeReport i r).choices = s.choices ∧
    (s.judgeReport i r).lastClear = s.lastClear ∧ (s.judgeReport i r).pending = s.pending := by
  simp only [State.judgeReport]
  (repeat' split) <;> simp
@[simp] theorem judgeReport_reads (s : State) (i : StationId) (r : ReportView) :
    ((s.judgeReport i r).halted = s.halted ∧ (s.judgeReport i r).runInFlight = s.runInFlight) ∧
    (∀ q, (s.judgeReport i r).port q = s.port q) :=
  ⟨⟨halted_congr (by simp), runInFlight_congr (by simp)⟩, fun q => port_congr (by simp) q⟩

/-- raiseEvent leaves these fields as they were. -/
@[simp] theorem raiseEvent_frame (s : State) (i : StationId) (c : AnswerCode) (a g o : Nat) :
    (s.raiseEvent i c a g o).params = s.params ∧ (s.raiseEvent i c a g o).engine = s.engine ∧
    (s.raiseEvent i c a g o).published = s.published ∧ (s.raiseEvent i c a g o).stations = s.stations ∧
    (s.raiseEvent i c a g o).heldTakes = s.heldTakes ∧ (s.raiseEvent i c a g o).storage = s.storage ∧
    (s.raiseEvent i c a g o).ramp = s.ramp ∧ (s.raiseEvent i c a g o).ports = s.ports ∧
    (s.raiseEvent i c a g o).choices = s.choices ∧ (s.raiseEvent i c a g o).lastClear = s.lastClear ∧
    (s.raiseEvent i c a g o).pending = s.pending := by
  simp only [State.raiseEvent]
  (repeat' split) <;> simp
@[simp] theorem raiseEvent_reads (s : State) (i : StationId) (c : AnswerCode) (a g o : Nat) :
    ((s.raiseEvent i c a g o).halted = s.halted ∧ (s.raiseEvent i c a g o).runInFlight = s.runInFlight) ∧
    (∀ j, (s.raiseEvent i c a g o).station j = s.station j) ∧
    (∀ q, (s.raiseEvent i c a g o).port q = s.port q) :=
  ⟨⟨halted_congr (by simp), runInFlight_congr (by simp)⟩, fun j => station_congr (by simp) j, fun q => port_congr (by simp) q⟩

/-- pushAnswer leaves these fields as they were. -/
@[simp] theorem pushAnswer_frame (s : State) (p : Port) (a : Answer) :
    (s.pushAnswer p a).params = s.params ∧ (s.pushAnswer p a).engine = s.engine ∧
    (s.pushAnswer p a).published = s.published ∧ (s.pushAnswer p a).stations = s.stations ∧
    (s.pushAnswer p a).heldTakes = s.heldTakes ∧ (s.pushAnswer p a).storage = s.storage ∧
    (s.pushAnswer p a).ramp = s.ramp ∧ (s.pushAnswer p a).stats = s.stats ∧ (s.pushAnswer p a).router = s.router ∧
    (s.pushAnswer p a).choices = s.choices ∧ (s.pushAnswer p a).lastClear = s.lastClear ∧
    (s.pushAnswer p a).pending = s.pending := by
  refine ⟨?_, ?_⟩ <;> first | rfl | (repeat' constructor)
@[simp] theorem pushAnswer_reads (s : State) (p : Port) (a : Answer) :
    ((s.pushAnswer p a).halted = s.halted ∧ (s.pushAnswer p a).runInFlight = s.runInFlight) ∧
    (∀ j, (s.pushAnswer p a).station j = s.station j) :=
  ⟨⟨halted_congr (by simp), runInFlight_congr (by simp)⟩, fun j => station_congr (by simp) j⟩

/-- releaseHeld leaves these fields as they were. -/
@[simp] theorem releaseHeld_frame (s : State) (p : Port) (a : Answer) :
    (s.releaseHeld p a).params = s.params ∧ (s.releaseHeld p a).engine = s.engine ∧
    (s.releaseHeld p a).published = s.published ∧ (s.releaseHeld p a).stations = s.stations ∧
    (s.releaseHeld p a).heldTakes = s.heldTakes ∧ (s.releaseHeld p a).storage = s.storage ∧
    (s.releaseHeld p a).ramp = s.ramp ∧ (s.releaseHeld p a).stats = s.stats ∧
    (s.releaseHeld p a).router = s.router ∧ (s.releaseHeld p a).choices = s.choices ∧
    (s.releaseHeld p a).lastClear = s.lastClear ∧ (s.releaseHeld p a).pending = s.pending := by
  refine ⟨?_, ?_⟩ <;> first | rfl | (repeat' constructor)
@[simp] theorem releaseHeld_reads (s : State) (p : Port) (a : Answer) :
    ((s.releaseHeld p a).halted = s.halted ∧ (s.releaseHeld p a).runInFlight = s.runInFlight) ∧
    (∀ j, (s.releaseHeld p a).station j = s.station j) :=
  ⟨⟨halted_congr (by simp), runInFlight_congr (by simp)⟩, fun j => station_congr (by simp) j⟩

/-- takeFromRecord leaves these fields as they were. -/
@[simp] theorem takeFromRecord_frame (s : State) (i : StationId) :
    (takeFromRecord s i).1.params = s.params ∧ (takeFromRecord s i).1.engine = s.engine ∧
    (takeFromRecord s i).1.published = s.published ∧ (takeFromRecord s i).1.heldTakes = s.heldTakes ∧
    (takeFromRecord s i).1.storage = s.storage ∧ (takeFromRecord s i).1.ramp = s.ramp ∧
    (takeFromRecord s i).1.ports = s.ports ∧ (takeFromRecord s i).1.choices = s.choices ∧
    (takeFromRecord s i).1.lastClear = s.lastClear ∧ (takeFromRecord s i).1.pending = s.pending := by
  simp [takeFromRecord]
@[simp] theorem takeFromRecord_reads (s : State) (i : StationId) :
    ((takeFromRecord s i).1.halted = s.halted ∧ (takeFromRecord s i).1.runInFlight = s.runInFlight) ∧
    (∀ q, (takeFromRecord s i).1.port q = s.port q) :=
  ⟨⟨halted_congr (by simp), runInFlight_congr (by simp)⟩, fun q => port_congr (by simp) q⟩

/-- answerTake leaves these fields as they were. -/
@[simp] theorem answerTake_frame (s : State) (i : StationId) :
    (answerTake s i).1.params = s.params ∧ (answerTake s i).1.engine = s.engine ∧
    (answerTake s i).1.published = s.published ∧ (answerTake s i).1.heldTakes = s.heldTakes ∧
    (answerTake s i).1.storage = s.storage ∧ (answerTake s i).1.ramp = s.ramp ∧
    (answerTake s i).1.ports = s.ports ∧ (answerTake s i).1.choices = s.choices ∧
    (answerTake s i).1.lastClear = s.lastClear ∧ (answerTake s i).1.pending = s.pending := by
  unfold answerTake
  (repeat' split) <;> simp
@[simp] theorem answerTake_reads (s : State) (i : StationId) :
    ((answerTake s i).1.halted = s.halted ∧ (answerTake s i).1.runInFlight = s.runInFlight) ∧
    (∀ q, (answerTake s i).1.port q = s.port q) :=
  ⟨⟨halted_congr (by simp), runInFlight_congr (by simp)⟩, fun q => port_congr (by simp) q⟩

/-- answerHeldTake leaves these fields as they were. -/
@[simp] theorem answerHeldTake_frame (s : State) (h : HeldTake) :
    (s.answerHeldTake h).params = s.params ∧ (s.answerHeldTake h).engine = s.engine ∧
    (s.answerHeldTake h).published = s.published ∧ (s.answerHeldTake h).heldTakes = s.heldTakes ∧
    (s.answerHeldTake h).storage = s.storage ∧ (s.answerHeldTake h).ramp = s.ramp ∧
    (s.answerHeldTake h).choices = s.choices ∧ (s.answerHeldTake h).lastClear = s.lastClear ∧
    (s.answerHeldTake h).pending = s.pending := by
  simp [State.answerHeldTake]
@[simp] theorem answerHeldTake_reads (s : State) (h : HeldTake) :
    ((s.answerHeldTake h).halted = s.halted ∧ (s.answerHeldTake h).runInFlight = s.runInFlight) :=
  ⟨halted_congr (by simp), runInFlight_congr (by simp)⟩

/-- deadlinePart leaves these fields as they were. -/
@[simp] theorem deadlinePart_frame (s : State) (x : StationId × DeadlinePart) :
    (s.deadlinePart x).params = s.params ∧ (s.deadlinePart x).engine = s.engine ∧
    (s.deadlinePart x).published = s.published ∧ (s.deadlinePart x).heldTakes = s.heldTakes ∧
    (s.deadlinePart x).storage = s.storage ∧ (s.deadlinePart x).ramp = s.ramp ∧
    (s.deadlinePart x).ports = s.ports ∧ (s.deadlinePart x).choices = s.choices ∧
    (s.deadlinePart x).lastClear = s.lastClear ∧ (s.deadlinePart x).pending = s.pending := by
  simp only [State.deadlinePart]
  (repeat' split) <;> simp
@[simp] theorem deadlinePart_reads (s : State) (x : StationId × DeadlinePart) :
    ((s.deadlinePart x).halted = s.halted ∧ (s.deadlinePart x).runInFlight = s.runInFlight) ∧
    (∀ q, (s.deadlinePart x).port q = s.port q) :=
  ⟨⟨halted_congr (by simp), runInFlight_congr (by simp)⟩, fun q => port_congr (by simp) q⟩

/-- takeDeadlines leaves these fields as they were. -/
@[simp] theorem takeDeadlines_frame (s : State) :
    (s.takeDeadlines).params = s.params ∧ (s.takeDeadlines).engine = s.engine ∧
    (s.takeDeadlines).published = s.published ∧ (s.takeDeadlines).heldTakes = s.heldTakes ∧
    (s.takeDeadlines).storage = s.storage ∧ (s.takeDeadlines).ramp = s.ramp ∧ (s.takeDeadlines).ports = s.ports ∧
    (s.takeDeadlines).lastClear = s.lastClear ∧ (s.takeDeadlines).pending = s.pending := by
  simp only [State.takeDeadlines]
  refine together_inv (P := fun t => t.params = s.params ∧ t.engine = s.engine ∧ t.published = s.published ∧ t.heldTakes = s.heldTakes ∧ t.storage = s.storage ∧ t.ramp = s.ramp ∧ t.ports = s.ports ∧ t.lastClear = s.lastClear ∧ t.pending = s.pending) (fun t n h => h) ?_ _ (by simp)
  intro t x _ h
  simpa using h
@[simp] theorem takeDeadlines_reads (s : State) :
    ((s.takeDeadlines).halted = s.halted ∧ (s.takeDeadlines).runInFlight = s.runInFlight) ∧
    (∀ q, (s.takeDeadlines).port q = s.port q) :=
  ⟨⟨halted_congr (by simp), runInFlight_congr (by simp)⟩, fun q => port_congr (by simp) q⟩

/-- answerHeldTakes leaves these fields as they were. -/
@[simp] theorem answerHeldTakes_frame (s : State) :
    (s.answerHeldTakes).params = s.params ∧ (s.answerHeldTakes).engine = s.engine ∧
    (s.answerHeldTakes).published = s.published ∧ (s.answerHeldTakes).storage = s.storage ∧
    (s.answerHeldTakes).ramp = s.ramp ∧ (s.answerHeldTakes).choices = s.choices ∧
    (s.answerHeldTakes).lastClear = s.lastClear ∧ (s.answerHeldTakes).pending = s.pending := by
  simp only [State.answerHeldTakes]
  have key : ∀ (l : List HeldTake) (u : State), (fun t => t.params = u.params ∧ t.engine = u.engine ∧ t.published = u.published ∧ t.storage = u.storage ∧ t.ramp = u.ramp ∧ t.choices = u.choices ∧ t.lastClear = u.lastClear ∧ t.pending = u.pending) (l.foldl State.answerHeldTake u) := by
    intro l
    induction l with
    | nil => intro u; simp
    | cons h l ih => intro u; simpa using ih (u.answerHeldTake h)
  simpa using key s.heldTakes (s.setHeldTakes [])
@[simp] theorem answerHeldTakes_reads (s : State) :
    ((s.answerHeldTakes).halted = s.halted ∧ (s.answerHeldTakes).runInFlight = s.runInFlight) :=
  ⟨halted_congr (by simp), runInFlight_congr (by simp)⟩

/-- grantPublication leaves these fields as they were. -/
@[simp] theorem grantPublication_frame (s : State) :
    (s.grantPublication).params = s.params ∧ (s.grantPublication).engine = s.engine ∧
    (s.grantPublication).published = s.published ∧ (s.grantPublication).storage = s.storage ∧
    (s.grantPublication).ramp = s.ramp ∧ (s.grantPublication).lastClear = s.lastClear ∧
    (s.grantPublication).pending = s.pending := by
  simp [State.grantPublication]
@[simp] theorem grantPublication_reads (s : State) :
    ((s.grantPublication).halted = s.halted ∧ (s.grantPublication).runInFlight = s.runInFlight) :=
  ⟨halted_congr (by simp), runInFlight_congr (by simp)⟩

/-- grantHalt leaves these fields as they were. -/
@[simp] theorem grantHalt_frame (s : State) :
    (s.grantHalt).params = s.params ∧ (s.grantHalt).engine = s.engine ∧ (s.grantHalt).published = s.published ∧
    (s.grantHalt).storage = s.storage ∧ (s.grantHalt).ramp = s.ramp ∧ (s.grantHalt).lastClear = s.lastClear ∧
    (s.grantHalt).pending = s.pending := by
  have key : (fun t => t.params = s.params ∧ t.engine = s.engine ∧ t.published = s.published ∧ t.storage = s.storage ∧ t.ramp = s.ramp ∧ t.lastClear = s.lastClear ∧ t.pending = s.pending) (s.together State.cancelInterlock (stationIds.map fun i => [i])) :=
    together_inv (P := fun t => t.params = s.params ∧ t.engine = s.engine ∧ t.published = s.published ∧ t.storage = s.storage ∧ t.ramp = s.ramp ∧ t.lastClear = s.lastClear ∧ t.pending = s.pending) (fun t n h => h) (fun t i _ h => by simpa using h) s (by simp)
  simpa [State.grantHalt] using key
@[simp] theorem grantHalt_reads (s : State) :
    ((s.grantHalt).halted = s.halted ∧ (s.grantHalt).runInFlight = s.runInFlight) :=
  ⟨halted_congr (by simp), runInFlight_congr (by simp)⟩

/-- dropHeldTake leaves these fields as they were. -/
@[simp] theorem dropHeldTake_frame (s : State) (i : StationId) :
    (s.dropHeldTake i).params = s.params ∧ (s.dropHeldTake i).engine = s.engine ∧
    (s.dropHeldTake i).published = s.published ∧ (s.dropHeldTake i).stations = s.stations ∧
    (s.dropHeldTake i).storage = s.storage ∧ (s.dropHeldTake i).ramp = s.ramp ∧
    (s.dropHeldTake i).stats = s.stats ∧ (s.dropHeldTake i).router = s.router ∧
    (s.dropHeldTake i).ports = s.ports ∧ (s.dropHeldTake i).choices = s.choices ∧
    (s.dropHeldTake i).lastClear = s.lastClear ∧ (s.dropHeldTake i).pending = s.pending := by
  refine ⟨?_, ?_⟩ <;> first | rfl | (repeat' constructor)
@[simp] theorem dropHeldTake_reads (s : State) (i : StationId) :
    ((s.dropHeldTake i).halted = s.halted ∧ (s.dropHeldTake i).runInFlight = s.runInFlight) ∧
    (∀ j, (s.dropHeldTake i).station j = s.station j) ∧
    (∀ q, (s.dropHeldTake i).port q = s.port q) :=
  ⟨⟨halted_congr (by simp), runInFlight_congr (by simp)⟩, fun j => station_congr (by simp) j, fun q => port_congr (by simp) q⟩

/-- leaveStorageStale leaves these fields as they were. -/
@[simp] theorem leaveStorageStale_frame (s : State) (x : StorageState) :
    (s.leaveStorageStale x).params = s.params ∧ (s.leaveStorageStale x).engine = s.engine ∧
    (s.leaveStorageStale x).published = s.published ∧ (s.leaveStorageStale x).stations = s.stations ∧
    (s.leaveStorageStale x).heldTakes = s.heldTakes ∧ (s.leaveStorageStale x).storage = s.storage ∧
    (s.leaveStorageStale x).ramp = s.ramp ∧ (s.leaveStorageStale x).stats = s.stats ∧
    (s.leaveStorageStale x).ports = s.ports ∧ (s.leaveStorageStale x).choices = s.choices ∧
    (s.leaveStorageStale x).lastClear = s.lastClear ∧ (s.leaveStorageStale x).pending = s.pending := by
  simp only [State.leaveStorageStale]
  (repeat' split) <;> simp
@[simp] theorem leaveStorageStale_reads (s : State) (x : StorageState) :
    ((s.leaveStorageStale x).halted = s.halted ∧ (s.leaveStorageStale x).runInFlight = s.runInFlight) ∧
    (∀ j, (s.leaveStorageStale x).station j = s.station j) ∧
    (∀ q, (s.leaveStorageStale x).port q = s.port q) :=
  ⟨⟨halted_congr (by simp), runInFlight_congr (by simp)⟩, fun j => station_congr (by simp) j, fun q => port_congr (by simp) q⟩

/-- answerHeldDispatch leaves these fields as they were. -/
@[simp] theorem answerHeldDispatch_frame (s : State) :
    (s.answerHeldDispatch).params = s.params ∧ (s.answerHeldDispatch).engine = s.engine ∧
    (s.answerHeldDispatch).published = s.published ∧ (s.answerHeldDispatch).stations = s.stations ∧
    (s.answerHeldDispatch).heldTakes = s.heldTakes ∧ (s.answerHeldDispatch).ramp = s.ramp ∧
    (s.answerHeldDispatch).stats = s.stats ∧ (s.answerHeldDispatch).router = s.router ∧
    (s.answerHeldDispatch).choices = s.choices ∧ (s.answerHeldDispatch).lastClear = s.lastClear ∧
    (s.answerHeldDispatch).pending = s.pending := by
  simp only [State.answerHeldDispatch]
  (repeat' split) <;> simp
@[simp] theorem answerHeldDispatch_reads (s : State) :
    ((s.answerHeldDispatch).halted = s.halted ∧ (s.answerHeldDispatch).runInFlight = s.runInFlight) ∧
    (∀ j, (s.answerHeldDispatch).station j = s.station j) :=
  ⟨⟨halted_congr (by simp), runInFlight_congr (by simp)⟩, fun j => station_congr (by simp) j⟩

/-- ageStorage leaves these fields as they were. -/
@[simp] theorem ageStorage_frame (s : State) :
    (s.ageStorage).params = s.params ∧ (s.ageStorage).engine = s.engine ∧ (s.ageStorage).published = s.published ∧
    (s.ageStorage).stations = s.stations ∧ (s.ageStorage).heldTakes = s.heldTakes ∧ (s.ageStorage).ramp = s.ramp ∧
    (s.ageStorage).stats = s.stats ∧ (s.ageStorage).ports = s.ports ∧ (s.ageStorage).choices = s.choices ∧
    (s.ageStorage).lastClear = s.lastClear ∧ (s.ageStorage).pending = s.pending := by
  simp only [State.ageStorage]
  (repeat' split) <;> simp
@[simp] theorem ageStorage_reads (s : State) :
    ((s.ageStorage).halted = s.halted ∧ (s.ageStorage).runInFlight = s.runInFlight) ∧
    (∀ j, (s.ageStorage).station j = s.station j) ∧
    (∀ q, (s.ageStorage).port q = s.port q) :=
  ⟨⟨halted_congr (by simp), runInFlight_congr (by simp)⟩, fun j => station_congr (by simp) j, fun q => port_congr (by simp) q⟩

/-- resetStorage leaves these fields as they were. -/
@[simp] theorem resetStorage_frame (s : State) :
    (s.resetStorage).params = s.params ∧ (s.resetStorage).engine = s.engine ∧
    (s.resetStorage).published = s.published ∧ (s.resetStorage).stations = s.stations ∧
    (s.resetStorage).heldTakes = s.heldTakes ∧ (s.resetStorage).ramp = s.ramp ∧ (s.resetStorage).stats = s.stats ∧
    (s.resetStorage).ports = s.ports ∧ (s.resetStorage).choices = s.choices ∧
    (s.resetStorage).lastClear = s.lastClear ∧ (s.resetStorage).pending = s.pending := by
  simp only [State.resetStorage]
  (repeat' split) <;> simp
@[simp] theorem resetStorage_reads (s : State) :
    ((s.resetStorage).halted = s.halted ∧ (s.resetStorage).runInFlight = s.runInFlight) ∧
    (∀ j, (s.resetStorage).station j = s.station j) ∧
    (∀ q, (s.resetStorage).port q = s.port q) :=
  ⟨⟨halted_congr (by simp), runInFlight_congr (by simp)⟩, fun j => station_congr (by simp) j, fun q => port_congr (by simp) q⟩

/-- releaseScopes leaves these fields as they were. -/
@[simp] theorem releaseScopes_frame (s : State) (x : Vector Scope 5) :
    (s.releaseScopes x).params = s.params ∧ (s.releaseScopes x).engine = s.engine ∧
    (s.releaseScopes x).published = s.published ∧ (s.releaseScopes x).heldTakes = s.heldTakes ∧
    (s.releaseScopes x).storage = s.storage ∧ (s.releaseScopes x).stats = s.stats ∧
    (s.releaseScopes x).ports = s.ports ∧ (s.releaseScopes x).choices = s.choices ∧
    (s.releaseScopes x).lastClear = s.lastClear ∧ (s.releaseScopes x).pending = s.pending := by
  simp only [State.releaseScopes]
  (repeat' split) <;> simp
@[simp] theorem releaseScopes_reads (s : State) (x : Vector Scope 5) :
    ((s.releaseScopes x).halted = s.halted ∧ (s.releaseScopes x).runInFlight = s.runInFlight) ∧
    (∀ q, (s.releaseScopes x).port q = s.port q) :=
  ⟨⟨halted_congr (by simp), runInFlight_congr (by simp)⟩, fun q => port_congr (by simp) q⟩

/-- freezeScope leaves these fields as they were. -/
@[simp] theorem freezeScope_frame (s : State) (n : ScopeId) :
    (s.freezeScope n).params = s.params ∧ (s.freezeScope n).engine = s.engine ∧
    (s.freezeScope n).published = s.published ∧ (s.freezeScope n).heldTakes = s.heldTakes ∧
    (s.freezeScope n).storage = s.storage ∧ (s.freezeScope n).stats = s.stats ∧ (s.freezeScope n).ports = s.ports ∧
    (s.freezeScope n).choices = s.choices ∧ (s.freezeScope n).lastClear = s.lastClear ∧
    (s.freezeScope n).pending = s.pending := by
  simp only [State.freezeScope]
  (repeat' split) <;> simp
@[simp] theorem freezeScope_reads (s : State) (n : ScopeId) :
    ((s.freezeScope n).halted = s.halted ∧ (s.freezeScope n).runInFlight = s.runInFlight) ∧
    (∀ q, (s.freezeScope n).port q = s.port q) :=
  ⟨⟨halted_congr (by simp), runInFlight_congr (by simp)⟩, fun q => port_congr (by simp) q⟩

/-- rampViolations leaves these fields as they were. -/
@[simp] theorem rampViolations_frame (s : State) (x : RunResult) :
    (s.rampViolations x).params = s.params ∧ (s.rampViolations x).engine = s.engine ∧
    (s.rampViolations x).published = s.published ∧ (s.rampViolations x).stations = s.stations ∧
    (s.rampViolations x).heldTakes = s.heldTakes ∧ (s.rampViolations x).storage = s.storage ∧
    (s.rampViolations x).stats = s.stats ∧ (s.rampViolations x).ports = s.ports ∧
    (s.rampViolations x).choices = s.choices ∧ (s.rampViolations x).lastClear = s.lastClear ∧
    (s.rampViolations x).pending = s.pending := by
  simp only [State.rampViolations]
  (repeat' split) <;> simp
@[simp] theorem rampViolations_reads (s : State) (x : RunResult) :
    ((s.rampViolations x).halted = s.halted ∧ (s.rampViolations x).runInFlight = s.runInFlight) ∧
    (∀ j, (s.rampViolations x).station j = s.station j) ∧
    (∀ q, (s.rampViolations x).port q = s.port q) :=
  ⟨⟨halted_congr (by simp), runInFlight_congr (by simp)⟩, fun j => station_congr (by simp) j, fun q => port_congr (by simp) q⟩

/-- rampScopes leaves these fields as they were. -/
@[simp] theorem rampScopes_frame (s : State) (x : RunResult) :
    (s.rampScopes x).params = s.params ∧ (s.rampScopes x).engine = s.engine ∧
    (s.rampScopes x).published = s.published ∧ (s.rampScopes x).heldTakes = s.heldTakes ∧
    (s.rampScopes x).storage = s.storage ∧ (s.rampScopes x).stats = s.stats ∧ (s.rampScopes x).ports = s.ports ∧
    (s.rampScopes x).choices = s.choices ∧ (s.rampScopes x).lastClear = s.lastClear ∧
    (s.rampScopes x).pending = s.pending := by
  simp only [State.rampScopes]
  (repeat' split) <;> simp
@[simp] theorem rampScopes_reads (s : State) (x : RunResult) :
    ((s.rampScopes x).halted = s.halted ∧ (s.rampScopes x).runInFlight = s.runInFlight) ∧
    (∀ q, (s.rampScopes x).port q = s.port q) :=
  ⟨⟨halted_congr (by simp), runInFlight_congr (by simp)⟩, fun q => port_congr (by simp) q⟩

/-- runCauses leaves these fields as they were. -/
@[simp] theorem runCauses_frame (s : State) (x : RunResult) :
    (s.runCauses x).params = s.params ∧ (s.runCauses x).engine = s.engine ∧
    (s.runCauses x).published = s.published ∧ (s.runCauses x).stations = s.stations ∧
    (s.runCauses x).heldTakes = s.heldTakes ∧ (s.runCauses x).storage = s.storage ∧ (s.runCauses x).ramp = s.ramp ∧
    (s.runCauses x).stats = s.stats ∧ (s.runCauses x).ports = s.ports ∧ (s.runCauses x).choices = s.choices ∧
    (s.runCauses x).lastClear = s.lastClear ∧ (s.runCauses x).pending = s.pending := by
  simp [State.runCauses]
@[simp] theorem runCauses_reads (s : State) (x : RunResult) :
    ((s.runCauses x).halted = s.halted ∧ (s.runCauses x).runInFlight = s.runInFlight) ∧
    (∀ j, (s.runCauses x).station j = s.station j) ∧
    (∀ q, (s.runCauses x).port q = s.port q) :=
  ⟨⟨halted_congr (by simp), runInFlight_congr (by simp)⟩, fun j => station_congr (by simp) j, fun q => port_congr (by simp) q⟩

/-- rampPublication leaves these fields as they were. -/
@[simp] theorem rampPublication_frame (s : State) (x : RunResult) :
    (s.rampPublication x).params = s.params ∧ (s.rampPublication x).engine = s.engine ∧
    (s.rampPublication x).published = s.published ∧ (s.rampPublication x).heldTakes = s.heldTakes ∧
    (s.rampPublication x).storage = s.storage ∧ (s.rampPublication x).stats = s.stats ∧
    (s.rampPublication x).ports = s.ports ∧ (s.rampPublication x).choices = s.choices ∧
    (s.rampPublication x).lastClear = s.lastClear ∧ (s.rampPublication x).pending = s.pending := by
  simp [State.rampPublication]
@[simp] theorem rampPublication_reads (s : State) (x : RunResult) :
    ((s.rampPublication x).halted = s.halted ∧ (s.rampPublication x).runInFlight = s.runInFlight) ∧
    (∀ q, (s.rampPublication x).port q = s.port q) :=
  ⟨⟨halted_congr (by simp), runInFlight_congr (by simp)⟩, fun q => port_congr (by simp) q⟩

/-- becomeStale leaves these fields as they were. -/
@[simp] theorem becomeStale_frame (s : State) (i : StationId) :
    (s.becomeStale i).params = s.params ∧ (s.becomeStale i).engine = s.engine ∧
    (s.becomeStale i).published = s.published ∧ (s.becomeStale i).heldTakes = s.heldTakes ∧
    (s.becomeStale i).storage = s.storage ∧ (s.becomeStale i).ramp = s.ramp ∧ (s.becomeStale i).ports = s.ports ∧
    (s.becomeStale i).choices = s.choices ∧ (s.becomeStale i).lastClear = s.lastClear ∧
    (s.becomeStale i).pending = s.pending := by
  simp [State.becomeStale]
@[simp] theorem becomeStale_reads (s : State) (i : StationId) :
    ((s.becomeStale i).halted = s.halted ∧ (s.becomeStale i).runInFlight = s.runInFlight) ∧
    (∀ q, (s.becomeStale i).port q = s.port q) :=
  ⟨⟨halted_congr (by simp), runInFlight_congr (by simp)⟩, fun q => port_congr (by simp) q⟩

/-- reportStale leaves these fields as they were. -/
@[simp] theorem reportStale_frame (s : State) (i : StationId) :
    (s.reportStale i).params = s.params ∧ (s.reportStale i).engine = s.engine ∧
    (s.reportStale i).published = s.published ∧ (s.reportStale i).stations = s.stations ∧
    (s.reportStale i).heldTakes = s.heldTakes ∧ (s.reportStale i).storage = s.storage ∧
    (s.reportStale i).ramp = s.ramp ∧ (s.reportStale i).ports = s.ports ∧ (s.reportStale i).choices = s.choices ∧
    (s.reportStale i).lastClear = s.lastClear ∧ (s.reportStale i).pending = s.pending := by
  simp [State.reportStale]
@[simp] theorem reportStale_reads (s : State) (i : StationId) :
    ((s.reportStale i).halted = s.halted ∧ (s.reportStale i).runInFlight = s.runInFlight) ∧
    (∀ j, (s.reportStale i).station j = s.station j) ∧
    (∀ q, (s.reportStale i).port q = s.port q) :=
  ⟨⟨halted_congr (by simp), runInFlight_congr (by simp)⟩, fun j => station_congr (by simp) j, fun q => port_congr (by simp) q⟩

/-- staleLonger leaves these fields as they were. -/
@[simp] theorem staleLonger_frame (s : State) (i : StationId) :
    (s.staleLonger i).params = s.params ∧ (s.staleLonger i).engine = s.engine ∧
    (s.staleLonger i).published = s.published ∧ (s.staleLonger i).heldTakes = s.heldTakes ∧
    (s.staleLonger i).storage = s.storage ∧ (s.staleLonger i).ramp = s.ramp ∧ (s.staleLonger i).ports = s.ports ∧
    (s.staleLonger i).choices = s.choices ∧ (s.staleLonger i).lastClear = s.lastClear ∧
    (s.staleLonger i).pending = s.pending := by
  simp only [State.staleLonger]
  (repeat' split) <;> simp
@[simp] theorem staleLonger_reads (s : State) (i : StationId) :
    ((s.staleLonger i).halted = s.halted ∧ (s.staleLonger i).runInFlight = s.runInFlight) ∧
    (∀ q, (s.staleLonger i).port q = s.port q) :=
  ⟨⟨halted_congr (by simp), runInFlight_congr (by simp)⟩, fun q => port_congr (by simp) q⟩

/-- ageingPart leaves these fields as they were. -/
@[simp] theorem ageingPart_frame (s : State) (x : StationId × AgeingPart) :
    (s.ageingPart x).params = s.params ∧ (s.ageingPart x).engine = s.engine ∧
    (s.ageingPart x).published = s.published ∧ (s.ageingPart x).heldTakes = s.heldTakes ∧
    (s.ageingPart x).storage = s.storage ∧ (s.ageingPart x).ramp = s.ramp ∧ (s.ageingPart x).ports = s.ports ∧
    (s.ageingPart x).choices = s.choices ∧ (s.ageingPart x).lastClear = s.lastClear ∧
    (s.ageingPart x).pending = s.pending := by
  simp only [State.ageingPart]
  (repeat' split) <;> simp
@[simp] theorem ageingPart_reads (s : State) (x : StationId × AgeingPart) :
    ((s.ageingPart x).halted = s.halted ∧ (s.ageingPart x).runInFlight = s.runInFlight) ∧
    (∀ q, (s.ageingPart x).port q = s.port q) :=
  ⟨⟨halted_congr (by simp), runInFlight_congr (by simp)⟩, fun q => port_congr (by simp) q⟩

/-- ageStations leaves these fields as they were. -/
@[simp] theorem ageStations_frame (s : State) :
    (s.ageStations).params = s.params ∧ (s.ageStations).engine = s.engine ∧
    (s.ageStations).published = s.published ∧ (s.ageStations).heldTakes = s.heldTakes ∧
    (s.ageStations).storage = s.storage ∧ (s.ageStations).ramp = s.ramp ∧ (s.ageStations).ports = s.ports ∧
    (s.ageStations).lastClear = s.lastClear ∧ (s.ageStations).pending = s.pending := by
  simp only [State.ageStations]
  refine together_inv (P := fun t => t.params = s.params ∧ t.engine = s.engine ∧ t.published = s.published ∧ t.heldTakes = s.heldTakes ∧ t.storage = s.storage ∧ t.ramp = s.ramp ∧ t.ports = s.ports ∧ t.lastClear = s.lastClear ∧ t.pending = s.pending) (fun t n h => h) ?_ _ (by simp)
  intro t x _ h
  simpa using h
@[simp] theorem ageStations_reads (s : State) :
    ((s.ageStations).halted = s.halted ∧ (s.ageStations).runInFlight = s.runInFlight) ∧
    (∀ q, (s.ageStations).port q = s.port q) :=
  ⟨⟨halted_congr (by simp), runInFlight_congr (by simp)⟩, fun q => port_congr (by simp) q⟩

/-- Finding the states of a snapshot can use up one free choice, and leaves the rest of the aged state as it was. -/
theorem snapshotStates_choices (s t : State) : ∃ n, (s.snapshotStates t).2 = { t with choices := n } := by
  simp only [State.snapshotStates]
  split
  · exact ⟨_, rfl⟩
  · exact ⟨_, rfl⟩

/-- startRun leaves these fields as they were. -/
@[simp] theorem startRun_frame (s : State) :
    (s.startRun).params = s.params ∧ (s.startRun).published = s.published ∧ (s.startRun).heldTakes = s.heldTakes ∧
    (s.startRun).ramp = s.ramp ∧ (s.startRun).ports = s.ports ∧ (s.startRun).pending = s.pending := by
  obtain ⟨n, h⟩ := snapshotStates_choices s s.ageStations.ageStorage
  simp only [State.startRun, h]
  simp
@[simp] theorem startRun_reads (s : State) :
    (∀ q, (s.startRun).port q = s.port q) :=
  fun q => port_congr (by simp) q

/-- commitRun leaves these fields as they were. -/
@[simp] theorem commitRun_frame (s : State) (x : RunResult) :
    (s.commitRun x).params = s.params ∧ (s.commitRun x).stations = s.stations ∧
    (s.commitRun x).heldTakes = s.heldTakes ∧ (s.commitRun x).storage = s.storage ∧ (s.commitRun x).ramp = s.ramp ∧
    (s.commitRun x).stats = s.stats ∧ (s.commitRun x).router = s.router ∧ (s.commitRun x).ports = s.ports ∧
    (s.commitRun x).choices = s.choices ∧ (s.commitRun x).lastClear = s.lastClear ∧
    (s.commitRun x).pending = s.pending := by
  refine ⟨?_, ?_⟩ <;> first | rfl | (repeat' constructor)
@[simp] theorem commitRun_reads (s : State) (x : RunResult) :
    (∀ j, (s.commitRun x).station j = s.station j) ∧
    (∀ q, (s.commitRun x).port q = s.port q) :=
  ⟨fun j => station_congr (by simp) j, fun q => port_congr (by simp) q⟩

/-- publish leaves these fields as they were. -/
@[simp] theorem publish_frame (s : State) (x : RunResult) :
    (s.publish x).params = s.params ∧ (s.publish x).pending = s.pending := by
  simp [State.publish]

/-- stopEngine leaves these fields as they were. -/
@[simp] theorem stopEngine_frame (s : State) :
    (s.stopEngine).params = s.params ∧ (s.stopEngine).stations = s.stations ∧
    (s.stopEngine).heldTakes = s.heldTakes ∧ (s.stopEngine).storage = s.storage ∧ (s.stopEngine).ramp = s.ramp ∧
    (s.stopEngine).stats = s.stats ∧ (s.stopEngine).router = s.router ∧ (s.stopEngine).ports = s.ports ∧
    (s.stopEngine).choices = s.choices ∧ (s.stopEngine).lastClear = s.lastClear ∧
    (s.stopEngine).pending = s.pending := by
  refine ⟨?_, ?_⟩ <;> first | rfl | (repeat' constructor)
@[simp] theorem stopEngine_reads (s : State) :
    (∀ j, (s.stopEngine).station j = s.station j) ∧
    (∀ q, (s.stopEngine).port q = s.port q) :=
  ⟨fun j => station_congr (by simp) j, fun q => port_congr (by simp) q⟩

/-- haltEngine leaves these fields as they were. -/
@[simp] theorem haltEngine_frame (s : State) :
    (s.haltEngine).params = s.params ∧ (s.haltEngine).ramp = s.ramp ∧ (s.haltEngine).lastClear = s.lastClear ∧
    (s.haltEngine).pending = s.pending := by
  simp [State.haltEngine]

/-- startEngine leaves these fields as they were. -/
@[simp] theorem startEngine_frame (s : State) :
    (s.startEngine).params = s.params ∧ (s.startEngine).heldTakes = s.heldTakes ∧ (s.startEngine).ports = s.ports ∧
    (s.startEngine).choices = s.choices ∧ (s.startEngine).lastClear = s.lastClear ∧
    (s.startEngine).pending = s.pending := by
  simp [State.startEngine]
@[simp] theorem startEngine_reads (s : State) :
    (∀ q, (s.startEngine).port q = s.port q) :=
  fun q => port_congr (by simp) q

/-- writeGroup leaves these fields as they were. -/
@[simp] theorem writeGroup_frame (s : State) (i : StationId) (v : Nat) :
    (s.writeGroup i v).params = s.params ∧ (s.writeGroup i v).engine = s.engine ∧
    (s.writeGroup i v).published = s.published ∧ (s.writeGroup i v).heldTakes = s.heldTakes ∧
    (s.writeGroup i v).storage = s.storage ∧ (s.writeGroup i v).ramp = s.ramp ∧
    (s.writeGroup i v).stats = s.stats ∧ (s.writeGroup i v).ports = s.ports ∧
    (s.writeGroup i v).choices = s.choices ∧ (s.writeGroup i v).lastClear = s.lastClear ∧
    (s.writeGroup i v).pending = s.pending := by
  simp [State.writeGroup]
@[simp] theorem writeGroup_reads (s : State) (i : StationId) (v : Nat) :
    ((s.writeGroup i v).halted = s.halted ∧ (s.writeGroup i v).runInFlight = s.runInFlight) ∧
    (∀ q, (s.writeGroup i v).port q = s.port q) :=
  ⟨⟨halted_congr (by simp), runInFlight_congr (by simp)⟩, fun q => port_congr (by simp) q⟩

/-- dropEvents leaves these fields as they were. -/
@[simp] theorem dropEvents_frame (s : State) (p : Port) (n : Nat) :
    (s.dropEvents p n).params = s.params ∧ (s.dropEvents p n).engine = s.engine ∧
    (s.dropEvents p n).published = s.published ∧ (s.dropEvents p n).stations = s.stations ∧
    (s.dropEvents p n).heldTakes = s.heldTakes ∧ (s.dropEvents p n).storage = s.storage ∧
    (s.dropEvents p n).ramp = s.ramp ∧ (s.dropEvents p n).ports = s.ports ∧
    (s.dropEvents p n).choices = s.choices ∧ (s.dropEvents p n).lastClear = s.lastClear ∧
    (s.dropEvents p n).pending = s.pending := by
  induction n generalizing s with
  | zero => simp [State.dropEvents]
  | succ n ih => simp [State.dropEvents, ih]
@[simp] theorem dropEvents_reads (s : State) (p : Port) (n : Nat) :
    ((s.dropEvents p n).halted = s.halted ∧ (s.dropEvents p n).runInFlight = s.runInFlight) ∧
    (∀ j, (s.dropEvents p n).station j = s.station j) ∧
    (∀ q, (s.dropEvents p n).port q = s.port q) :=
  ⟨⟨halted_congr (by simp), runInFlight_congr (by simp)⟩, fun j => station_congr (by simp) j, fun q => port_congr (by simp) q⟩

/-- writeDepth leaves these fields as they were. -/
@[simp] theorem writeDepth_frame (s : State) (p : Port) (v : Nat) :
    (s.writeDepth p v).params = s.params ∧ (s.writeDepth p v).engine = s.engine ∧
    (s.writeDepth p v).published = s.published ∧ (s.writeDepth p v).stations = s.stations ∧
    (s.writeDepth p v).heldTakes = s.heldTakes ∧ (s.writeDepth p v).storage = s.storage ∧
    (s.writeDepth p v).ramp = s.ramp ∧ (s.writeDepth p v).choices = s.choices ∧
    (s.writeDepth p v).lastClear = s.lastClear ∧ (s.writeDepth p v).pending = s.pending := by
  simp [State.writeDepth]
@[simp] theorem writeDepth_reads (s : State) (p : Port) (v : Nat) :
    ((s.writeDepth p v).halted = s.halted ∧ (s.writeDepth p v).runInFlight = s.runInFlight) ∧
    (∀ j, (s.writeDepth p v).station j = s.station j) :=
  ⟨⟨halted_congr (by simp), runInFlight_congr (by simp)⟩, fun j => station_congr (by simp) j⟩

/-- storeParam leaves these fields as they were. -/
@[simp] theorem storeParam_frame (s : State) (id k : Nat) (v : BitVec 32) :
    (storeParam s id k v).engine = s.engine ∧ (storeParam s id k v).published = s.published ∧
    (storeParam s id k v).heldTakes = s.heldTakes ∧ (storeParam s id k v).storage = s.storage ∧
    (storeParam s id k v).ramp = s.ramp ∧ (storeParam s id k v).choices = s.choices ∧
    (storeParam s id k v).lastClear = s.lastClear ∧ (storeParam s id k v).pending = s.pending := by
  simp only [storeParam]
  (repeat' split) <;> simp
@[simp] theorem storeParam_reads (s : State) (id k : Nat) (v : BitVec 32) :
    ((storeParam s id k v).halted = s.halted ∧ (storeParam s id k v).runInFlight = s.runInFlight) :=
  ⟨halted_congr (by simp), runInFlight_congr (by simp)⟩

/-- takingEnds leaves these fields as they were. -/
@[simp] theorem takingEnds_frame (s : State) (p : Port) (b : Body) :
    (s.takingEnds p b).params = s.params ∧ (s.takingEnds p b).engine = s.engine ∧
    (s.takingEnds p b).published = s.published ∧ (s.takingEnds p b).heldTakes = s.heldTakes ∧
    (s.takingEnds p b).storage = s.storage ∧ (s.takingEnds p b).ramp = s.ramp ∧
    (s.takingEnds p b).ports = s.ports ∧ (s.takingEnds p b).choices = s.choices ∧
    (s.takingEnds p b).lastClear = s.lastClear ∧ (s.takingEnds p b).pending = s.pending := by
  simp only [State.takingEnds]
  (repeat' split) <;> simp
@[simp] theorem takingEnds_reads (s : State) (p : Port) (b : Body) :
    ((s.takingEnds p b).halted = s.halted ∧ (s.takingEnds p b).runInFlight = s.runInFlight) ∧
    (∀ q, (s.takingEnds p b).port q = s.port q) :=
  ⟨⟨halted_congr (by simp), runInFlight_congr (by simp)⟩, fun q => port_congr (by simp) q⟩

/-- enqueue leaves these fields as they were. -/
@[simp] theorem enqueue_frame (s : State) (p : Port) (r : Request) :
    (s.enqueue p r).params = s.params ∧ (s.enqueue p r).engine = s.engine ∧
    (s.enqueue p r).published = s.published ∧ (s.enqueue p r).stations = s.stations ∧
    (s.enqueue p r).heldTakes = s.heldTakes ∧ (s.enqueue p r).storage = s.storage ∧ (s.enqueue p r).ramp = s.ramp ∧
    (s.enqueue p r).choices = s.choices ∧ (s.enqueue p r).lastClear = s.lastClear ∧
    (s.enqueue p r).pending = s.pending := by
  simp only [State.enqueue]
  (repeat' split) <;> simp
@[simp] theorem enqueue_reads (s : State) (p : Port) (r : Request) :
    ((s.enqueue p r).halted = s.halted ∧ (s.enqueue p r).runInFlight = s.runInFlight) ∧
    (∀ j, (s.enqueue p r).station j = s.station j) :=
  ⟨⟨halted_congr (by simp), runInFlight_congr (by simp)⟩, fun j => station_congr (by simp) j⟩

/-- resetBehind leaves these fields as they were. -/
@[simp] theorem resetBehind_frame (s : State) (p : Port) :
    (s.resetBehind p).params = s.params ∧ (s.resetBehind p).engine = s.engine ∧
    (s.resetBehind p).published = s.published ∧ (s.resetBehind p).ramp = s.ramp ∧
    (s.resetBehind p).ports = s.ports ∧ (s.resetBehind p).choices = s.choices ∧
    (s.resetBehind p).lastClear = s.lastClear ∧ (s.resetBehind p).pending = s.pending := by
  simp only [State.resetBehind]
  (repeat' split) <;> simp
@[simp] theorem resetBehind_reads (s : State) (p : Port) :
    ((s.resetBehind p).halted = s.halted ∧ (s.resetBehind p).runInFlight = s.runInFlight) ∧
    (∀ q, (s.resetBehind p).port q = s.port q) :=
  ⟨⟨halted_congr (by simp), runInFlight_congr (by simp)⟩, fun q => port_congr (by simp) q⟩

/-- emptySet leaves these fields as they were. -/
@[simp] theorem emptySet_frame (s : State) (p : Port) :
    (s.emptySet p).params = s.params ∧ (s.emptySet p).engine = s.engine ∧ (s.emptySet p).published = s.published ∧
    (s.emptySet p).stations = s.stations ∧ (s.emptySet p).heldTakes = s.heldTakes ∧
    (s.emptySet p).storage = s.storage ∧ (s.emptySet p).ramp = s.ramp ∧ (s.emptySet p).stats = s.stats ∧
    (s.emptySet p).ports = s.ports ∧ (s.emptySet p).choices = s.choices ∧ (s.emptySet p).lastClear = s.lastClear ∧
    (s.emptySet p).pending = s.pending := by
  refine ⟨?_, ?_⟩ <;> first | rfl | (repeat' constructor)
@[simp] theorem emptySet_reads (s : State) (p : Port) :
    ((s.emptySet p).halted = s.halted ∧ (s.emptySet p).runInFlight = s.runInFlight) ∧
    (∀ j, (s.emptySet p).station j = s.station j) ∧
    (∀ q, (s.emptySet p).port q = s.port q) :=
  ⟨⟨halted_congr (by simp), runInFlight_congr (by simp)⟩, fun j => station_congr (by simp) j, fun q => port_congr (by simp) q⟩

/-- resetPart leaves these fields as they were. -/
@[simp] theorem resetPart_frame (s : State) (p : Port) (g : Byte) (x : ResetPart) :
    (s.resetPart p g x).params = s.params ∧ (s.resetPart p g x).engine = s.engine ∧
    (s.resetPart p g x).published = s.published ∧ (s.resetPart p g x).ramp = s.ramp ∧
    (s.resetPart p g x).choices = s.choices ∧ (s.resetPart p g x).lastClear = s.lastClear ∧
    (s.resetPart p g x).pending = s.pending := by
  cases x <;> simp [State.resetPart]
@[simp] theorem resetPart_reads (s : State) (p : Port) (g : Byte) (x : ResetPart) :
    ((s.resetPart p g x).halted = s.halted ∧ (s.resetPart p g x).runInFlight = s.runInFlight) :=
  ⟨halted_congr (by simp), runInFlight_congr (by simp)⟩

/-- portReset leaves these fields as they were. -/
@[simp] theorem portReset_frame (s : State) (p : Port) (g : Byte) :
    (s.portReset p g).params = s.params ∧ (s.portReset p g).engine = s.engine ∧
    (s.portReset p g).published = s.published ∧ (s.portReset p g).ramp = s.ramp ∧
    (s.portReset p g).lastClear = s.lastClear ∧ (s.portReset p g).pending = s.pending := by
  simp only [State.portReset]
  refine together_inv (P := fun t => t.params = s.params ∧ t.engine = s.engine ∧ t.published = s.published ∧ t.ramp = s.ramp ∧ t.lastClear = s.lastClear ∧ t.pending = s.pending) (fun t n h => h) ?_ _ (by simp)
  intro t x _ h
  simpa using h
@[simp] theorem portReset_reads (s : State) (p : Port) (g : Byte) :
    ((s.portReset p g).halted = s.halted ∧ (s.portReset p g).runInFlight = s.runInFlight) :=
  ⟨halted_congr (by simp), runInFlight_congr (by simp)⟩

/-- beginFrame leaves these fields as they were. -/
@[simp] theorem beginFrame_frame (s : State) (p : Port) :
    (s.beginFrame p).params = s.params ∧ (s.beginFrame p).engine = s.engine ∧
    (s.beginFrame p).published = s.published ∧ (s.beginFrame p).stations = s.stations ∧
    (s.beginFrame p).heldTakes = s.heldTakes ∧ (s.beginFrame p).storage = s.storage ∧
    (s.beginFrame p).ramp = s.ramp ∧ (s.beginFrame p).stats = s.stats ∧ (s.beginFrame p).router = s.router ∧
    (s.beginFrame p).choices = s.choices ∧ (s.beginFrame p).pending = s.pending := by
  simp only [State.beginFrame]
  (repeat' split) <;> simp
@[simp] theorem beginFrame_reads (s : State) (p : Port) :
    ((s.beginFrame p).halted = s.halted ∧ (s.beginFrame p).runInFlight = s.runInFlight) ∧
    (∀ j, (s.beginFrame p).station j = s.station j) :=
  ⟨⟨halted_congr (by simp), runInFlight_congr (by simp)⟩, fun j => station_congr (by simp) j⟩

/-- setFerr leaves these fields as they were. -/
@[simp] theorem setFerr_frame (s : State) (p : Port) :
    (s.setFerr p).params = s.params ∧ (s.setFerr p).engine = s.engine ∧ (s.setFerr p).published = s.published ∧
    (s.setFerr p).stations = s.stations ∧ (s.setFerr p).heldTakes = s.heldTakes ∧
    (s.setFerr p).storage = s.storage ∧ (s.setFerr p).ramp = s.ramp ∧ (s.setFerr p).stats = s.stats ∧
    (s.setFerr p).router = s.router ∧ (s.setFerr p).choices = s.choices ∧ (s.setFerr p).lastClear = s.lastClear ∧
    (s.setFerr p).pending = s.pending := by
  refine ⟨?_, ?_⟩ <;> first | rfl | (repeat' constructor)
@[simp] theorem setFerr_reads (s : State) (p : Port) :
    ((s.setFerr p).halted = s.halted ∧ (s.setFerr p).runInFlight = s.runInFlight) ∧
    (∀ j, (s.setFerr p).station j = s.station j) :=
  ⟨⟨halted_congr (by simp), runInFlight_congr (by simp)⟩, fun j => station_congr (by simp) j⟩

/-- breakFrame leaves these fields as they were. -/
@[simp] theorem breakFrame_frame (s : State) (p : Port) :
    (s.breakFrame p).params = s.params ∧ (s.breakFrame p).engine = s.engine ∧
    (s.breakFrame p).published = s.published ∧ (s.breakFrame p).stations = s.stations ∧
    (s.breakFrame p).heldTakes = s.heldTakes ∧ (s.breakFrame p).storage = s.storage ∧
    (s.breakFrame p).ramp = s.ramp ∧ (s.breakFrame p).choices = s.choices ∧ (s.breakFrame p).pending = s.pending := by
  simp [State.breakFrame]
@[simp] theorem breakFrame_reads (s : State) (p : Port) :
    ((s.breakFrame p).halted = s.halted ∧ (s.breakFrame p).runInFlight = s.runInFlight) ∧
    (∀ j, (s.breakFrame p).station j = s.station j) :=
  ⟨⟨halted_congr (by simp), runInFlight_congr (by simp)⟩, fun j => station_congr (by simp) j⟩

/-- releaseLink leaves these fields as they were. -/
@[simp] theorem releaseLink_frame (s : State) (p : Port) :
    (s.releaseLink p).params = s.params ∧ (s.releaseLink p).engine = s.engine ∧
    (s.releaseLink p).published = s.published ∧ (s.releaseLink p).stations = s.stations ∧
    (s.releaseLink p).heldTakes = s.heldTakes ∧ (s.releaseLink p).storage = s.storage ∧
    (s.releaseLink p).ramp = s.ramp ∧ (s.releaseLink p).stats = s.stats ∧ (s.releaseLink p).router = s.router ∧
    (s.releaseLink p).choices = s.choices ∧ (s.releaseLink p).pending = s.pending := by
  refine ⟨?_, ?_⟩ <;> first | rfl | (repeat' constructor)
@[simp] theorem releaseLink_reads (s : State) (p : Port) :
    ((s.releaseLink p).halted = s.halted ∧ (s.releaseLink p).runInFlight = s.runInFlight) ∧
    (∀ j, (s.releaseLink p).station j = s.station j) :=
  ⟨⟨halted_congr (by simp), runInFlight_congr (by simp)⟩, fun j => station_congr (by simp) j⟩

/-! ### The services of the requests -/

/-- serveJoin leaves these fields as they were. -/
@[simp] theorem serveJoin_frame (s : State) (i : StationId) :
    (serveJoin s i).1.params = s.params ∧ (serveJoin s i).1.engine = s.engine ∧
    (serveJoin s i).1.published = s.published ∧ (serveJoin s i).1.heldTakes = s.heldTakes ∧
    (serveJoin s i).1.storage = s.storage ∧ (serveJoin s i).1.ramp = s.ramp ∧ (serveJoin s i).1.ports = s.ports ∧
    (serveJoin s i).1.choices = s.choices ∧ (serveJoin s i).1.lastClear = s.lastClear ∧
    (serveJoin s i).1.pending = s.pending := by
  simp only [serveJoin, stateReply, storageStateReply, reportReply, storTelReply, statReply, pageReply]
  (repeat' split) <;> simp
@[simp] theorem serveJoin_reads (s : State) (i : StationId) :
    ((serveJoin s i).1.halted = s.halted ∧ (serveJoin s i).1.runInFlight = s.runInFlight) ∧
    (∀ q, (serveJoin s i).1.port q = s.port q) :=
  ⟨⟨halted_congr (by simp), runInFlight_congr (by simp)⟩, fun q => port_congr (by simp) q⟩

/-- serveLeave leaves these fields as they were. -/
@[simp] theorem serveLeave_frame (s : State) (i : StationId) :
    (serveLeave s i).1.params = s.params ∧ (serveLeave s i).1.engine = s.engine ∧
    (serveLeave s i).1.published = s.published ∧ (serveLeave s i).1.heldTakes = s.heldTakes ∧
    (serveLeave s i).1.storage = s.storage ∧ (serveLeave s i).1.ramp = s.ramp ∧
    (serveLeave s i).1.ports = s.ports ∧ (serveLeave s i).1.choices = s.choices ∧
    (serveLeave s i).1.lastClear = s.lastClear ∧ (serveLeave s i).1.pending = s.pending := by
  simp only [serveLeave, stateReply, storageStateReply, reportReply, storTelReply, statReply, pageReply]
  (repeat' split) <;> simp
@[simp] theorem serveLeave_reads (s : State) (i : StationId) :
    ((serveLeave s i).1.halted = s.halted ∧ (serveLeave s i).1.runInFlight = s.runInFlight) ∧
    (∀ q, (serveLeave s i).1.port q = s.port q) :=
  ⟨⟨halted_congr (by simp), runInFlight_congr (by simp)⟩, fun q => port_congr (by simp) q⟩

/-- servePark leaves these fields as they were. -/
@[simp] theorem servePark_frame (s : State) (b : Byte) (c : BitVec 16) :
    (servePark s b c).1.params = s.params ∧ (servePark s b c).1.engine = s.engine ∧
    (servePark s b c).1.published = s.published ∧ (servePark s b c).1.heldTakes = s.heldTakes ∧
    (servePark s b c).1.storage = s.storage ∧ (servePark s b c).1.ramp = s.ramp ∧
    (servePark s b c).1.ports = s.ports ∧ (servePark s b c).1.choices = s.choices ∧
    (servePark s b c).1.lastClear = s.lastClear ∧ (servePark s b c).1.pending = s.pending := by
  simp only [servePark, stateReply, storageStateReply, reportReply, storTelReply, statReply, pageReply]
  (repeat' split) <;> simp
@[simp] theorem servePark_reads (s : State) (b : Byte) (c : BitVec 16) :
    ((servePark s b c).1.halted = s.halted ∧ (servePark s b c).1.runInFlight = s.runInFlight) ∧
    (∀ q, (servePark s b c).1.port q = s.port q) :=
  ⟨⟨halted_congr (by simp), runInFlight_congr (by simp)⟩, fun q => port_congr (by simp) q⟩

/-- serveUnpark leaves these fields as they were. -/
@[simp] theorem serveUnpark_frame (s : State) (b : Byte) :
    (serveUnpark s b).1.params = s.params ∧ (serveUnpark s b).1.engine = s.engine ∧
    (serveUnpark s b).1.published = s.published ∧ (serveUnpark s b).1.heldTakes = s.heldTakes ∧
    (serveUnpark s b).1.storage = s.storage ∧ (serveUnpark s b).1.ramp = s.ramp ∧
    (serveUnpark s b).1.ports = s.ports ∧ (serveUnpark s b).1.choices = s.choices ∧
    (serveUnpark s b).1.lastClear = s.lastClear ∧ (serveUnpark s b).1.pending = s.pending := by
  simp only [serveUnpark, stateReply, storageStateReply, reportReply, storTelReply, statReply, pageReply]
  (repeat' split) <;> simp
@[simp] theorem serveUnpark_reads (s : State) (b : Byte) :
    ((serveUnpark s b).1.halted = s.halted ∧ (serveUnpark s b).1.runInFlight = s.runInFlight) ∧
    (∀ q, (serveUnpark s b).1.port q = s.port q) :=
  ⟨⟨halted_congr (by simp), runInFlight_congr (by simp)⟩, fun q => port_congr (by simp) q⟩

/-- serveTelemetry leaves these fields as they were. -/
@[simp] theorem serveTelemetry_frame (s : State) (i : StationId) (m a : BitVec 16) :
    (serveTelemetry s i m a).1.params = s.params ∧ (serveTelemetry s i m a).1.engine = s.engine ∧
    (serveTelemetry s i m a).1.published = s.published ∧ (serveTelemetry s i m a).1.heldTakes = s.heldTakes ∧
    (serveTelemetry s i m a).1.storage = s.storage ∧ (serveTelemetry s i m a).1.ramp = s.ramp ∧
    (serveTelemetry s i m a).1.ports = s.ports ∧ (serveTelemetry s i m a).1.choices = s.choices ∧
    (serveTelemetry s i m a).1.lastClear = s.lastClear ∧ (serveTelemetry s i m a).1.pending = s.pending := by
  simp only [serveTelemetry, stateReply, storageStateReply, reportReply, storTelReply, statReply, pageReply]
  (repeat' split) <;> simp
@[simp] theorem serveTelemetry_reads (s : State) (i : StationId) (m a : BitVec 16) :
    ((serveTelemetry s i m a).1.halted = s.halted ∧ (serveTelemetry s i m a).1.runInFlight = s.runInFlight) ∧
    (∀ q, (serveTelemetry s i m a).1.port q = s.port q) :=
  ⟨⟨halted_congr (by simp), runInFlight_congr (by simp)⟩, fun q => port_congr (by simp) q⟩

/-- serveFaultClear leaves these fields as they were. -/
@[simp] theorem serveFaultClear_frame (s : State) (i : StationId) :
    (serveFaultClear s i).1.params = s.params ∧ (serveFaultClear s i).1.engine = s.engine ∧
    (serveFaultClear s i).1.published = s.published ∧ (serveFaultClear s i).1.heldTakes = s.heldTakes ∧
    (serveFaultClear s i).1.storage = s.storage ∧ (serveFaultClear s i).1.ramp = s.ramp ∧
    (serveFaultClear s i).1.ports = s.ports ∧ (serveFaultClear s i).1.choices = s.choices ∧
    (serveFaultClear s i).1.pending = s.pending := by
  simp only [serveFaultClear, stateReply, storageStateReply, reportReply, storTelReply, statReply, pageReply]
  (repeat' split) <;> simp
@[simp] theorem serveFaultClear_reads (s : State) (i : StationId) :
    ((serveFaultClear s i).1.halted = s.halted ∧ (serveFaultClear s i).1.runInFlight = s.runInFlight) ∧
    (∀ q, (serveFaultClear s i).1.port q = s.port q) :=
  ⟨⟨halted_congr (by simp), runInFlight_congr (by simp)⟩, fun q => port_congr (by simp) q⟩

/-- serveCeilTake leaves these fields as they were. -/
@[simp] theorem serveCeilTake_frame (s : State) (i : StationId) (g : Byte) :
    (serveCeilTake s i g).1.params = s.params ∧ (serveCeilTake s i g).1.engine = s.engine ∧
    (serveCeilTake s i g).1.published = s.published ∧ (serveCeilTake s i g).1.storage = s.storage ∧
    (serveCeilTake s i g).1.ramp = s.ramp ∧ (serveCeilTake s i g).1.ports = s.ports ∧
    (serveCeilTake s i g).1.choices = s.choices ∧ (serveCeilTake s i g).1.lastClear = s.lastClear ∧
    (serveCeilTake s i g).1.pending = s.pending := by
  simp only [serveCeilTake, stateReply, storageStateReply, reportReply, storTelReply, statReply, pageReply]
  (repeat' split) <;> simp
@[simp] theorem serveCeilTake_reads (s : State) (i : StationId) (g : Byte) :
    ((serveCeilTake s i g).1.halted = s.halted ∧ (serveCeilTake s i g).1.runInFlight = s.runInFlight) ∧
    (∀ q, (serveCeilTake s i g).1.port q = s.port q) :=
  ⟨⟨halted_congr (by simp), runInFlight_congr (by simp)⟩, fun q => port_congr (by simp) q⟩

/-- unpairedPart leaves these fields as they were. -/
@[simp] theorem unpairedPart_frame (s : State) (i : StationId) (x : UnpairedPart) :
    (s.unpairedPart i x).params = s.params ∧ (s.unpairedPart i x).engine = s.engine ∧
    (s.unpairedPart i x).published = s.published ∧ (s.unpairedPart i x).heldTakes = s.heldTakes ∧
    (s.unpairedPart i x).storage = s.storage ∧ (s.unpairedPart i x).ramp = s.ramp ∧
    (s.unpairedPart i x).ports = s.ports ∧ (s.unpairedPart i x).choices = s.choices ∧
    (s.unpairedPart i x).lastClear = s.lastClear ∧ (s.unpairedPart i x).pending = s.pending := by
  cases x <;> simp [State.unpairedPart]
@[simp] theorem unpairedPart_reads (s : State) (i : StationId) (x : UnpairedPart) :
    ((s.unpairedPart i x).halted = s.halted ∧ (s.unpairedPart i x).runInFlight = s.runInFlight) ∧
    (∀ q, (s.unpairedPart i x).port q = s.port q) :=
  ⟨⟨halted_congr (by simp), runInFlight_congr (by simp)⟩, fun q => port_congr (by simp) q⟩

/-- unpaired leaves these fields as they were. -/
@[simp] theorem unpaired_frame (s : State) (i : StationId) :
    (s.unpaired i).params = s.params ∧ (s.unpaired i).engine = s.engine ∧ (s.unpaired i).published = s.published ∧
    (s.unpaired i).heldTakes = s.heldTakes ∧ (s.unpaired i).storage = s.storage ∧ (s.unpaired i).ramp = s.ramp ∧
    (s.unpaired i).ports = s.ports ∧ (s.unpaired i).lastClear = s.lastClear ∧ (s.unpaired i).pending = s.pending := by
  simp only [State.unpaired]
  refine together_inv (P := fun t => t.params = s.params ∧ t.engine = s.engine ∧ t.published = s.published ∧ t.heldTakes = s.heldTakes ∧ t.storage = s.storage ∧ t.ramp = s.ramp ∧ t.ports = s.ports ∧ t.lastClear = s.lastClear ∧ t.pending = s.pending) (fun t n h => h) ?_ _ (by simp)
  intro t x _ h
  simpa using h
@[simp] theorem unpaired_reads (s : State) (i : StationId) :
    ((s.unpaired i).halted = s.halted ∧ (s.unpaired i).runInFlight = s.runInFlight) ∧
    (∀ q, (s.unpaired i).port q = s.port q) :=
  ⟨⟨halted_congr (by simp), runInFlight_congr (by simp)⟩, fun q => port_congr (by simp) q⟩

/-- serveCeilApply leaves these fields as they were. -/
@[simp] theorem serveCeilApply_frame (s : State) (i : StationId) (e : BitVec 16) :
    (serveCeilApply s i e).1.params = s.params ∧ (serveCeilApply s i e).1.engine = s.engine ∧
    (serveCeilApply s i e).1.published = s.published ∧ (serveCeilApply s i e).1.heldTakes = s.heldTakes ∧
    (serveCeilApply s i e).1.storage = s.storage ∧ (serveCeilApply s i e).1.ramp = s.ramp ∧
    (serveCeilApply s i e).1.ports = s.ports ∧ (serveCeilApply s i e).1.lastClear = s.lastClear ∧
    (serveCeilApply s i e).1.pending = s.pending := by
  simp only [serveCeilApply, stateReply, storageStateReply, reportReply, storTelReply, statReply, pageReply]
  (repeat' split) <;> simp
@[simp] theorem serveCeilApply_reads (s : State) (i : StationId) (e : BitVec 16) :
    ((serveCeilApply s i e).1.halted = s.halted ∧ (serveCeilApply s i e).1.runInFlight = s.runInFlight) ∧
    (∀ q, (serveCeilApply s i e).1.port q = s.port q) :=
  ⟨⟨halted_congr (by simp), runInFlight_congr (by simp)⟩, fun q => port_congr (by simp) q⟩

/-- serveStorageJoin leaves these fields as they were. -/
@[simp] theorem serveStorageJoin_frame (s : State) :
    (serveStorageJoin s).1.params = s.params ∧ (serveStorageJoin s).1.engine = s.engine ∧
    (serveStorageJoin s).1.published = s.published ∧ (serveStorageJoin s).1.stations = s.stations ∧
    (serveStorageJoin s).1.heldTakes = s.heldTakes ∧ (serveStorageJoin s).1.ramp = s.ramp ∧
    (serveStorageJoin s).1.stats = s.stats ∧ (serveStorageJoin s).1.ports = s.ports ∧
    (serveStorageJoin s).1.choices = s.choices ∧ (serveStorageJoin s).1.lastClear = s.lastClear ∧
    (serveStorageJoin s).1.pending = s.pending := by
  simp only [serveStorageJoin, stateReply, storageStateReply, reportReply, storTelReply, statReply, pageReply]
  (repeat' split) <;> simp
@[simp] theorem serveStorageJoin_reads (s : State) :
    ((serveStorageJoin s).1.halted = s.halted ∧ (serveStorageJoin s).1.runInFlight = s.runInFlight) ∧
    (∀ j, (serveStorageJoin s).1.station j = s.station j) ∧
    (∀ q, (serveStorageJoin s).1.port q = s.port q) :=
  ⟨⟨halted_congr (by simp), runInFlight_congr (by simp)⟩, fun j => station_congr (by simp) j, fun q => port_congr (by simp) q⟩

/-- serveStorageLeave leaves these fields as they were. -/
@[simp] theorem serveStorageLeave_frame (s : State) :
    (serveStorageLeave s).1.params = s.params ∧ (serveStorageLeave s).1.engine = s.engine ∧
    (serveStorageLeave s).1.published = s.published ∧ (serveStorageLeave s).1.stations = s.stations ∧
    (serveStorageLeave s).1.heldTakes = s.heldTakes ∧ (serveStorageLeave s).1.ramp = s.ramp ∧
    (serveStorageLeave s).1.stats = s.stats ∧ (serveStorageLeave s).1.ports = s.ports ∧
    (serveStorageLeave s).1.choices = s.choices ∧ (serveStorageLeave s).1.lastClear = s.lastClear ∧
    (serveStorageLeave s).1.pending = s.pending := by
  simp only [serveStorageLeave, stateReply, storageStateReply, reportReply, storTelReply, statReply, pageReply]
  (repeat' split) <;> simp
@[simp] theorem serveStorageLeave_reads (s : State) :
    ((serveStorageLeave s).1.halted = s.halted ∧ (serveStorageLeave s).1.runInFlight = s.runInFlight) ∧
    (∀ j, (serveStorageLeave s).1.station j = s.station j) ∧
    (∀ q, (serveStorageLeave s).1.port q = s.port q) :=
  ⟨⟨halted_congr (by simp), runInFlight_congr (by simp)⟩, fun j => station_congr (by simp) j, fun q => port_congr (by simp) q⟩

/-- serveStorTel leaves these fields as they were. -/
@[simp] theorem serveStorTel_frame (s : State) (m : BitVec 32) (a b c : BitVec 16) :
    (serveStorTel s m a b c).1.params = s.params ∧ (serveStorTel s m a b c).1.engine = s.engine ∧
    (serveStorTel s m a b c).1.published = s.published ∧ (serveStorTel s m a b c).1.stations = s.stations ∧
    (serveStorTel s m a b c).1.heldTakes = s.heldTakes ∧ (serveStorTel s m a b c).1.ramp = s.ramp ∧
    (serveStorTel s m a b c).1.stats = s.stats ∧ (serveStorTel s m a b c).1.ports = s.ports ∧
    (serveStorTel s m a b c).1.choices = s.choices ∧ (serveStorTel s m a b c).1.lastClear = s.lastClear ∧
    (serveStorTel s m a b c).1.pending = s.pending := by
  simp only [serveStorTel, stateReply, storageStateReply, reportReply, storTelReply, statReply, pageReply]
  (repeat' split) <;> simp
@[simp] theorem serveStorTel_reads (s : State) (m : BitVec 32) (a b c : BitVec 16) :
    ((serveStorTel s m a b c).1.halted = s.halted ∧ (serveStorTel s m a b c).1.runInFlight = s.runInFlight) ∧
    (∀ j, (serveStorTel s m a b c).1.station j = s.station j) ∧
    (∀ q, (serveStorTel s m a b c).1.port q = s.port q) :=
  ⟨⟨halted_congr (by simp), runInFlight_congr (by simp)⟩, fun j => station_congr (by simp) j, fun q => port_congr (by simp) q⟩

/-- serveDispTake leaves these fields as they were. -/
@[simp] theorem serveDispTake_frame (s : State) (g : Byte) :
    (serveDispTake s g).1.params = s.params ∧ (serveDispTake s g).1.engine = s.engine ∧
    (serveDispTake s g).1.published = s.published ∧ (serveDispTake s g).1.stations = s.stations ∧
    (serveDispTake s g).1.heldTakes = s.heldTakes ∧ (serveDispTake s g).1.ramp = s.ramp ∧
    (serveDispTake s g).1.stats = s.stats ∧ (serveDispTake s g).1.router = s.router ∧
    (serveDispTake s g).1.ports = s.ports ∧ (serveDispTake s g).1.choices = s.choices ∧
    (serveDispTake s g).1.lastClear = s.lastClear ∧ (serveDispTake s g).1.pending = s.pending := by
  simp only [serveDispTake, stateReply, storageStateReply, reportReply, storTelReply, statReply, pageReply]
  (repeat' split) <;> simp
@[simp] theorem serveDispTake_reads (s : State) (g : Byte) :
    ((serveDispTake s g).1.halted = s.halted ∧ (serveDispTake s g).1.runInFlight = s.runInFlight) ∧
    (∀ j, (serveDispTake s g).1.station j = s.station j) ∧
    (∀ q, (serveDispTake s g).1.port q = s.port q) :=
  ⟨⟨halted_congr (by simp), runInFlight_congr (by simp)⟩, fun j => station_congr (by simp) j, fun q => port_congr (by simp) q⟩

/-- serveMeter leaves these fields as they were. -/
@[simp] theorem serveMeter_frame (s : State) (v : BitVec 32) (g : BitVec 16) :
    (serveMeter s v g).1.params = s.params ∧ (serveMeter s v g).1.published = s.published ∧
    (serveMeter s v g).1.stations = s.stations ∧ (serveMeter s v g).1.heldTakes = s.heldTakes ∧
    (serveMeter s v g).1.storage = s.storage ∧ (serveMeter s v g).1.ramp = s.ramp ∧
    (serveMeter s v g).1.stats = s.stats ∧ (serveMeter s v g).1.router = s.router ∧
    (serveMeter s v g).1.ports = s.ports ∧ (serveMeter s v g).1.choices = s.choices ∧
    (serveMeter s v g).1.lastClear = s.lastClear ∧ (serveMeter s v g).1.pending = s.pending := by
  simp only [serveMeter, stateReply, storageStateReply, reportReply, storTelReply, statReply, pageReply]
  (repeat' split) <;> simp
@[simp] theorem serveMeter_reads (s : State) (v : BitVec 32) (g : BitVec 16) :
    (∀ j, (serveMeter s v g).1.station j = s.station j) ∧
    (∀ q, (serveMeter s v g).1.port q = s.port q) :=
  ⟨fun j => station_congr (by simp) j, fun q => port_congr (by simp) q⟩

/-- serveHistRead leaves these fields as they were. -/
@[simp] theorem serveHistRead_frame (s : State) (a : BitVec 16) :
    (serveHistRead s a).1.params = s.params ∧ (serveHistRead s a).1.engine = s.engine ∧
    (serveHistRead s a).1.published = s.published ∧ (serveHistRead s a).1.stations = s.stations ∧
    (serveHistRead s a).1.heldTakes = s.heldTakes ∧ (serveHistRead s a).1.storage = s.storage ∧
    (serveHistRead s a).1.ramp = s.ramp ∧ (serveHistRead s a).1.stats = s.stats ∧
    (serveHistRead s a).1.router = s.router ∧ (serveHistRead s a).1.ports = s.ports ∧
    (serveHistRead s a).1.choices = s.choices ∧ (serveHistRead s a).1.lastClear = s.lastClear ∧
    (serveHistRead s a).1.pending = s.pending := by
  simp only [serveHistRead, stateReply, storageStateReply, reportReply, storTelReply, statReply, pageReply]
  (repeat' split) <;> simp
@[simp] theorem serveHistRead_reads (s : State) (a : BitVec 16) :
    ((serveHistRead s a).1.halted = s.halted ∧ (serveHistRead s a).1.runInFlight = s.runInFlight) ∧
    (∀ j, (serveHistRead s a).1.station j = s.station j) ∧
    (∀ q, (serveHistRead s a).1.port q = s.port q) :=
  ⟨⟨halted_congr (by simp), runInFlight_congr (by simp)⟩, fun j => station_congr (by simp) j, fun q => port_congr (by simp) q⟩

/-- servePlantRead leaves these fields as they were. -/
@[simp] theorem servePlantRead_frame (s : State) (a : Byte) :
    (servePlantRead s a).1.params = s.params ∧ (servePlantRead s a).1.engine = s.engine ∧
    (servePlantRead s a).1.published = s.published ∧ (servePlantRead s a).1.stations = s.stations ∧
    (servePlantRead s a).1.heldTakes = s.heldTakes ∧ (servePlantRead s a).1.storage = s.storage ∧
    (servePlantRead s a).1.ramp = s.ramp ∧ (servePlantRead s a).1.stats = s.stats ∧
    (servePlantRead s a).1.router = s.router ∧ (servePlantRead s a).1.ports = s.ports ∧
    (servePlantRead s a).1.choices = s.choices ∧ (servePlantRead s a).1.lastClear = s.lastClear ∧
    (servePlantRead s a).1.pending = s.pending := by
  simp only [servePlantRead, stateReply, storageStateReply, reportReply, storTelReply, statReply, pageReply]
  (repeat' split) <;> simp
@[simp] theorem servePlantRead_reads (s : State) (a : Byte) :
    ((servePlantRead s a).1.halted = s.halted ∧ (servePlantRead s a).1.runInFlight = s.runInFlight) ∧
    (∀ j, (servePlantRead s a).1.station j = s.station j) ∧
    (∀ q, (servePlantRead s a).1.port q = s.port q) :=
  ⟨⟨halted_congr (by simp), runInFlight_congr (by simp)⟩, fun j => station_congr (by simp) j, fun q => port_congr (by simp) q⟩

/-- serveFaultClearPlant leaves these fields as they were. -/
@[simp] theorem serveFaultClearPlant_frame (s : State) :
    (serveFaultClearPlant s).1.params = s.params ∧ (serveFaultClearPlant s).1.engine = s.engine ∧
    (serveFaultClearPlant s).1.published = s.published ∧ (serveFaultClearPlant s).1.stations = s.stations ∧
    (serveFaultClearPlant s).1.heldTakes = s.heldTakes ∧ (serveFaultClearPlant s).1.storage = s.storage ∧
    (serveFaultClearPlant s).1.stats = s.stats ∧ (serveFaultClearPlant s).1.ports = s.ports ∧
    (serveFaultClearPlant s).1.choices = s.choices ∧ (serveFaultClearPlant s).1.lastClear = s.lastClear ∧
    (serveFaultClearPlant s).1.pending = s.pending := by
  simp only [serveFaultClearPlant, stateReply, storageStateReply, reportReply, storTelReply, statReply, pageReply]
  (repeat' split) <;> simp
@[simp] theorem serveFaultClearPlant_reads (s : State) :
    ((serveFaultClearPlant s).1.halted = s.halted ∧ (serveFaultClearPlant s).1.runInFlight = s.runInFlight) ∧
    (∀ j, (serveFaultClearPlant s).1.station j = s.station j) ∧
    (∀ q, (serveFaultClearPlant s).1.port q = s.port q) :=
  ⟨⟨halted_congr (by simp), runInFlight_congr (by simp)⟩, fun j => station_congr (by simp) j, fun q => port_congr (by simp) q⟩

/-- serveFaultClearNamed leaves these fields as they were. -/
@[simp] theorem serveFaultClearNamed_frame (s : State) (b : Byte) :
    (serveFaultClearNamed s b).1.params = s.params ∧ (serveFaultClearNamed s b).1.engine = s.engine ∧
    (serveFaultClearNamed s b).1.published = s.published ∧ (serveFaultClearNamed s b).1.heldTakes = s.heldTakes ∧
    (serveFaultClearNamed s b).1.storage = s.storage ∧ (serveFaultClearNamed s b).1.ports = s.ports ∧
    (serveFaultClearNamed s b).1.choices = s.choices ∧ (serveFaultClearNamed s b).1.pending = s.pending := by
  simp only [serveFaultClearNamed, stateReply, storageStateReply, reportReply, storTelReply, statReply, pageReply]
  (repeat' split) <;> simp
@[simp] theorem serveFaultClearNamed_reads (s : State) (b : Byte) :
    ((serveFaultClearNamed s b).1.halted = s.halted ∧ (serveFaultClearNamed s b).1.runInFlight = s.runInFlight) ∧
    (∀ q, (serveFaultClearNamed s b).1.port q = s.port q) :=
  ⟨⟨halted_congr (by simp), runInFlight_congr (by simp)⟩, fun q => port_congr (by simp) q⟩

/-- serveFreezeRelease leaves these fields as they were. -/
@[simp] theorem serveFreezeRelease_frame (s : State) (b : Byte) :
    (serveFreezeRelease s b).1.params = s.params ∧ (serveFreezeRelease s b).1.engine = s.engine ∧
    (serveFreezeRelease s b).1.published = s.published ∧ (serveFreezeRelease s b).1.heldTakes = s.heldTakes ∧
    (serveFreezeRelease s b).1.storage = s.storage ∧ (serveFreezeRelease s b).1.stats = s.stats ∧
    (serveFreezeRelease s b).1.ports = s.ports ∧ (serveFreezeRelease s b).1.choices = s.choices ∧
    (serveFreezeRelease s b).1.lastClear = s.lastClear ∧ (serveFreezeRelease s b).1.pending = s.pending := by
  simp only [serveFreezeRelease, stateReply, storageStateReply, reportReply, storTelReply, statReply, pageReply]
  (repeat' split) <;> simp
@[simp] theorem serveFreezeRelease_reads (s : State) (b : Byte) :
    ((serveFreezeRelease s b).1.halted = s.halted ∧ (serveFreezeRelease s b).1.runInFlight = s.runInFlight) ∧
    (∀ q, (serveFreezeRelease s b).1.port q = s.port q) :=
  ⟨⟨halted_congr (by simp), runInFlight_congr (by simp)⟩, fun q => port_congr (by simp) q⟩

/-- serveCaptRelease leaves these fields as they were. -/
@[simp] theorem serveCaptRelease_frame (s : State) :
    (serveCaptRelease s).1.params = s.params ∧ (serveCaptRelease s).1.engine = s.engine ∧
    (serveCaptRelease s).1.published = s.published ∧ (serveCaptRelease s).1.stations = s.stations ∧
    (serveCaptRelease s).1.heldTakes = s.heldTakes ∧ (serveCaptRelease s).1.storage = s.storage ∧
    (serveCaptRelease s).1.stats = s.stats ∧ (serveCaptRelease s).1.router = s.router ∧
    (serveCaptRelease s).1.ports = s.ports ∧ (serveCaptRelease s).1.choices = s.choices ∧
    (serveCaptRelease s).1.lastClear = s.lastClear ∧ (serveCaptRelease s).1.pending = s.pending := by
  simp only [serveCaptRelease, stateReply, storageStateReply, reportReply, storTelReply, statReply, pageReply]
  (repeat' split) <;> simp
@[simp] theorem serveCaptRelease_reads (s : State) :
    ((serveCaptRelease s).1.halted = s.halted ∧ (serveCaptRelease s).1.runInFlight = s.runInFlight) ∧
    (∀ j, (serveCaptRelease s).1.station j = s.station j) ∧
    (∀ q, (serveCaptRelease s).1.port q = s.port q) :=
  ⟨⟨halted_congr (by simp), runInFlight_congr (by simp)⟩, fun j => station_congr (by simp) j, fun q => port_congr (by simp) q⟩

/-- serveCaptRead leaves these fields as they were. -/
@[simp] theorem serveCaptRead_frame (s : State) (b : Byte) :
    (serveCaptRead s b).1.params = s.params ∧ (serveCaptRead s b).1.engine = s.engine ∧
    (serveCaptRead s b).1.published = s.published ∧ (serveCaptRead s b).1.stations = s.stations ∧
    (serveCaptRead s b).1.heldTakes = s.heldTakes ∧ (serveCaptRead s b).1.storage = s.storage ∧
    (serveCaptRead s b).1.ramp = s.ramp ∧ (serveCaptRead s b).1.stats = s.stats ∧
    (serveCaptRead s b).1.router = s.router ∧ (serveCaptRead s b).1.ports = s.ports ∧
    (serveCaptRead s b).1.choices = s.choices ∧ (serveCaptRead s b).1.lastClear = s.lastClear ∧
    (serveCaptRead s b).1.pending = s.pending := by
  simp only [serveCaptRead, stateReply, storageStateReply, reportReply, storTelReply, statReply, pageReply]
  (repeat' split) <;> simp
@[simp] theorem serveCaptRead_reads (s : State) (b : Byte) :
    ((serveCaptRead s b).1.halted = s.halted ∧ (serveCaptRead s b).1.runInFlight = s.runInFlight) ∧
    (∀ j, (serveCaptRead s b).1.station j = s.station j) ∧
    (∀ q, (serveCaptRead s b).1.port q = s.port q) :=
  ⟨⟨halted_congr (by simp), runInFlight_congr (by simp)⟩, fun j => station_congr (by simp) j, fun q => port_congr (by simp) q⟩

/-- serveEngHalt leaves these fields as they were. -/
@[simp] theorem serveEngHalt_frame (s : State) :
    (serveEngHalt s).1.params = s.params ∧ (serveEngHalt s).1.ramp = s.ramp ∧
    (serveEngHalt s).1.lastClear = s.lastClear ∧ (serveEngHalt s).1.pending = s.pending := by
  simp only [serveEngHalt, stateReply, storageStateReply, reportReply, storTelReply, statReply, pageReply]
  (repeat' split) <;> simp

/-- serveEngStart leaves these fields as they were. -/
@[simp] theorem serveEngStart_frame (s : State) :
    (serveEngStart s).1.params = s.params ∧ (serveEngStart s).1.heldTakes = s.heldTakes ∧
    (serveEngStart s).1.ports = s.ports ∧ (serveEngStart s).1.choices = s.choices ∧
    (serveEngStart s).1.lastClear = s.lastClear ∧ (serveEngStart s).1.pending = s.pending := by
  simp only [serveEngStart, stateReply, storageStateReply, reportReply, storTelReply, statReply, pageReply]
  (repeat' split) <;> simp
@[simp] theorem serveEngStart_reads (s : State) :
    (∀ q, (serveEngStart s).1.port q = s.port q) :=
  fun q => port_congr (by simp) q

/-- serveParamSet leaves these fields as they were. -/
@[simp] theorem serveParamSet_frame (s : State) (a b : Byte) (v : BitVec 32) :
    (serveParamSet s a b v).1.engine = s.engine ∧ (serveParamSet s a b v).1.published = s.published ∧
    (serveParamSet s a b v).1.heldTakes = s.heldTakes ∧ (serveParamSet s a b v).1.storage = s.storage ∧
    (serveParamSet s a b v).1.ramp = s.ramp ∧ (serveParamSet s a b v).1.choices = s.choices ∧
    (serveParamSet s a b v).1.lastClear = s.lastClear ∧ (serveParamSet s a b v).1.pending = s.pending := by
  simp only [serveParamSet, stateReply, storageStateReply, reportReply, storTelReply, statReply, pageReply]
  (repeat' split) <;> simp
@[simp] theorem serveParamSet_reads (s : State) (a b : Byte) (v : BitVec 32) :
    ((serveParamSet s a b v).1.halted = s.halted ∧ (serveParamSet s a b v).1.runInFlight = s.runInFlight) :=
  ⟨halted_congr (by simp), runInFlight_congr (by simp)⟩

/-- serveParamGet leaves these fields as they were. -/
@[simp] theorem serveParamGet_frame (s : State) (a b : Byte) :
    (serveParamGet s a b).1.params = s.params ∧ (serveParamGet s a b).1.engine = s.engine ∧
    (serveParamGet s a b).1.published = s.published ∧ (serveParamGet s a b).1.stations = s.stations ∧
    (serveParamGet s a b).1.heldTakes = s.heldTakes ∧ (serveParamGet s a b).1.storage = s.storage ∧
    (serveParamGet s a b).1.ramp = s.ramp ∧ (serveParamGet s a b).1.stats = s.stats ∧
    (serveParamGet s a b).1.router = s.router ∧ (serveParamGet s a b).1.ports = s.ports ∧
    (serveParamGet s a b).1.choices = s.choices ∧ (serveParamGet s a b).1.lastClear = s.lastClear ∧
    (serveParamGet s a b).1.pending = s.pending := by
  simp only [serveParamGet, stateReply, storageStateReply, reportReply, storTelReply, statReply, pageReply]
  (repeat' split) <;> simp
@[simp] theorem serveParamGet_reads (s : State) (a b : Byte) :
    ((serveParamGet s a b).1.halted = s.halted ∧ (serveParamGet s a b).1.runInFlight = s.runInFlight) ∧
    (∀ j, (serveParamGet s a b).1.station j = s.station j) ∧
    (∀ q, (serveParamGet s a b).1.port q = s.port q) :=
  ⟨⟨halted_congr (by simp), runInFlight_congr (by simp)⟩, fun j => station_congr (by simp) j, fun q => port_congr (by simp) q⟩

/-- serveEntryReadStation leaves these fields as they were. -/
@[simp] theorem serveEntryReadStation_frame (s : State) (i : StationId) (b : Byte) :
    (serveEntryReadStation s i b).1.params = s.params ∧ (serveEntryReadStation s i b).1.engine = s.engine ∧
    (serveEntryReadStation s i b).1.published = s.published ∧
    (serveEntryReadStation s i b).1.stations = s.stations ∧
    (serveEntryReadStation s i b).1.heldTakes = s.heldTakes ∧ (serveEntryReadStation s i b).1.storage = s.storage ∧
    (serveEntryReadStation s i b).1.ramp = s.ramp ∧ (serveEntryReadStation s i b).1.stats = s.stats ∧
    (serveEntryReadStation s i b).1.router = s.router ∧ (serveEntryReadStation s i b).1.ports = s.ports ∧
    (serveEntryReadStation s i b).1.choices = s.choices ∧ (serveEntryReadStation s i b).1.lastClear = s.lastClear ∧
    (serveEntryReadStation s i b).1.pending = s.pending := by
  simp only [serveEntryReadStation, stateReply, storageStateReply, reportReply, storTelReply, statReply, pageReply]
  (repeat' split) <;> simp
@[simp] theorem serveEntryReadStation_reads (s : State) (i : StationId) (b : Byte) :
    ((serveEntryReadStation s i b).1.halted = s.halted ∧ (serveEntryReadStation s i b).1.runInFlight = s.runInFlight) ∧
    (∀ j, (serveEntryReadStation s i b).1.station j = s.station j) ∧
    (∀ q, (serveEntryReadStation s i b).1.port q = s.port q) :=
  ⟨⟨halted_congr (by simp), runInFlight_congr (by simp)⟩, fun j => station_congr (by simp) j, fun q => port_congr (by simp) q⟩

/-- serveEntryReadSupervisor leaves these fields as they were. -/
@[simp] theorem serveEntryReadSupervisor_frame (s : State) (a b : Byte) :
    (serveEntryReadSupervisor s a b).1.params = s.params ∧ (serveEntryReadSupervisor s a b).1.engine = s.engine ∧
    (serveEntryReadSupervisor s a b).1.published = s.published ∧
    (serveEntryReadSupervisor s a b).1.stations = s.stations ∧
    (serveEntryReadSupervisor s a b).1.heldTakes = s.heldTakes ∧
    (serveEntryReadSupervisor s a b).1.storage = s.storage ∧ (serveEntryReadSupervisor s a b).1.ramp = s.ramp ∧
    (serveEntryReadSupervisor s a b).1.stats = s.stats ∧ (serveEntryReadSupervisor s a b).1.router = s.router ∧
    (serveEntryReadSupervisor s a b).1.ports = s.ports ∧ (serveEntryReadSupervisor s a b).1.choices = s.choices ∧
    (serveEntryReadSupervisor s a b).1.lastClear = s.lastClear ∧
    (serveEntryReadSupervisor s a b).1.pending = s.pending := by
  simp only [serveEntryReadSupervisor, stateReply, storageStateReply, reportReply, storTelReply, statReply, pageReply]
  (repeat' split) <;> simp
@[simp] theorem serveEntryReadSupervisor_reads (s : State) (a b : Byte) :
    ((serveEntryReadSupervisor s a b).1.halted = s.halted ∧ (serveEntryReadSupervisor s a b).1.runInFlight = s.runInFlight) ∧
    (∀ j, (serveEntryReadSupervisor s a b).1.station j = s.station j) ∧
    (∀ q, (serveEntryReadSupervisor s a b).1.port q = s.port q) :=
  ⟨⟨halted_congr (by simp), runInFlight_congr (by simp)⟩, fun j => station_congr (by simp) j, fun q => port_congr (by simp) q⟩

/-- serveAttnRead leaves these fields as they were. -/
@[simp] theorem serveAttnRead_frame (s : State) (p : Port) :
    (serveAttnRead s p).1.params = s.params ∧ (serveAttnRead s p).1.engine = s.engine ∧
    (serveAttnRead s p).1.published = s.published ∧ (serveAttnRead s p).1.stations = s.stations ∧
    (serveAttnRead s p).1.heldTakes = s.heldTakes ∧ (serveAttnRead s p).1.storage = s.storage ∧
    (serveAttnRead s p).1.ramp = s.ramp ∧ (serveAttnRead s p).1.stats = s.stats ∧
    (serveAttnRead s p).1.router = s.router ∧ (serveAttnRead s p).1.ports = s.ports ∧
    (serveAttnRead s p).1.choices = s.choices ∧ (serveAttnRead s p).1.lastClear = s.lastClear ∧
    (serveAttnRead s p).1.pending = s.pending := by
  simp only [serveAttnRead, stateReply, storageStateReply, reportReply, storTelReply, statReply, pageReply]
  (repeat' split) <;> simp
@[simp] theorem serveAttnRead_reads (s : State) (p : Port) :
    ((serveAttnRead s p).1.halted = s.halted ∧ (serveAttnRead s p).1.runInFlight = s.runInFlight) ∧
    (∀ j, (serveAttnRead s p).1.station j = s.station j) ∧
    (∀ q, (serveAttnRead s p).1.port q = s.port q) :=
  ⟨⟨halted_congr (by simp), runInFlight_congr (by simp)⟩, fun j => station_congr (by simp) j, fun q => port_congr (by simp) q⟩

/-- serveAttnAck leaves these fields as they were. -/
@[simp] theorem serveAttnAck_frame (s : State) (p : Port) (a b : Byte) :
    (serveAttnAck s p a b).1.params = s.params ∧ (serveAttnAck s p a b).1.engine = s.engine ∧
    (serveAttnAck s p a b).1.published = s.published ∧ (serveAttnAck s p a b).1.stations = s.stations ∧
    (serveAttnAck s p a b).1.heldTakes = s.heldTakes ∧ (serveAttnAck s p a b).1.storage = s.storage ∧
    (serveAttnAck s p a b).1.ramp = s.ramp ∧ (serveAttnAck s p a b).1.stats = s.stats ∧
    (serveAttnAck s p a b).1.ports = s.ports ∧ (serveAttnAck s p a b).1.choices = s.choices ∧
    (serveAttnAck s p a b).1.lastClear = s.lastClear ∧ (serveAttnAck s p a b).1.pending = s.pending := by
  simp only [serveAttnAck, stateReply, storageStateReply, reportReply, storTelReply, statReply, pageReply]
  (repeat' split) <;> simp
@[simp] theorem serveAttnAck_reads (s : State) (p : Port) (a b : Byte) :
    ((serveAttnAck s p a b).1.halted = s.halted ∧ (serveAttnAck s p a b).1.runInFlight = s.runInFlight) ∧
    (∀ j, (serveAttnAck s p a b).1.station j = s.station j) ∧
    (∀ q, (serveAttnAck s p a b).1.port q = s.port q) :=
  ⟨⟨halted_congr (by simp), runInFlight_congr (by simp)⟩, fun j => station_congr (by simp) j, fun q => port_congr (by simp) q⟩

/-- serveStatCtrl leaves these fields as they were. -/
@[simp] theorem serveStatCtrl_frame (s : State) (a : StatAction) :
    (serveStatCtrl s a).1.params = s.params ∧ (serveStatCtrl s a).1.engine = s.engine ∧
    (serveStatCtrl s a).1.published = s.published ∧ (serveStatCtrl s a).1.stations = s.stations ∧
    (serveStatCtrl s a).1.heldTakes = s.heldTakes ∧ (serveStatCtrl s a).1.storage = s.storage ∧
    (serveStatCtrl s a).1.ramp = s.ramp ∧ (serveStatCtrl s a).1.ports = s.ports ∧
    (serveStatCtrl s a).1.choices = s.choices ∧ (serveStatCtrl s a).1.lastClear = s.lastClear ∧
    (serveStatCtrl s a).1.pending = s.pending := by
  cases a <;> simp only [serveStatCtrl, statReply] <;> (repeat' split) <;> simp
@[simp] theorem serveStatCtrl_reads (s : State) (a : StatAction) :
    ((serveStatCtrl s a).1.halted = s.halted ∧ (serveStatCtrl s a).1.runInFlight = s.runInFlight) ∧
    (∀ j, (serveStatCtrl s a).1.station j = s.station j) ∧
    (∀ q, (serveStatCtrl s a).1.port q = s.port q) :=
  ⟨⟨halted_congr (by simp), runInFlight_congr (by simp)⟩, fun j => station_congr (by simp) j, fun q => port_congr (by simp) q⟩

/-- serveStatRead leaves these fields as they were. -/
@[simp] theorem serveStatRead_frame (s : State) (b : Byte) :
    (serveStatRead s b).1.params = s.params ∧ (serveStatRead s b).1.engine = s.engine ∧
    (serveStatRead s b).1.published = s.published ∧ (serveStatRead s b).1.stations = s.stations ∧
    (serveStatRead s b).1.heldTakes = s.heldTakes ∧ (serveStatRead s b).1.storage = s.storage ∧
    (serveStatRead s b).1.ramp = s.ramp ∧ (serveStatRead s b).1.stats = s.stats ∧
    (serveStatRead s b).1.router = s.router ∧ (serveStatRead s b).1.ports = s.ports ∧
    (serveStatRead s b).1.choices = s.choices ∧ (serveStatRead s b).1.lastClear = s.lastClear ∧
    (serveStatRead s b).1.pending = s.pending := by
  simp only [serveStatRead, stateReply, storageStateReply, reportReply, storTelReply, statReply, pageReply]
  (repeat' split) <;> simp
@[simp] theorem serveStatRead_reads (s : State) (b : Byte) :
    ((serveStatRead s b).1.halted = s.halted ∧ (serveStatRead s b).1.runInFlight = s.runInFlight) ∧
    (∀ j, (serveStatRead s b).1.station j = s.station j) ∧
    (∀ q, (serveStatRead s b).1.port q = s.port q) :=
  ⟨⟨halted_congr (by simp), runInFlight_congr (by simp)⟩, fun j => station_congr (by simp) j, fun q => port_congr (by simp) q⟩

end Sys2Proof.Machine
end

