-- ==== Sys2Proof/Laws/Notices.lean ====
section
/-! SUPPORT. What a firing, an end report and the end of an event do to the entries of one pair: those of their own pair
change as R157 and R159 say, and those of every other pair stay. -/

namespace Sys2Proof.Machine

/-! ### Agreement on a pair -/

theorem Router.AgreesAt.refl (x : Router) (k : CauseKind) (i : StationId) (p : Port) : x.AgreesAt x k i p := rfl

theorem Router.AgreesAt.symm {x y : Router} {k : CauseKind} {i : StationId} {p : Port} (h : x.AgreesAt y k i p) :
    y.AgreesAt x k i p :=
  Eq.symm h

theorem Router.AgreesAt.trans {x y z : Router} {k : CauseKind} {i : StationId} {p : Port}
    (h : x.AgreesAt y k i p) (g : y.AgreesAt z k i p) : x.AgreesAt z k i p := Eq.trans h g

/-- A pair: a cause kind and a station. -/
theorem isFor_iff (e : PendingEntry) (k : CauseKind) (i : StationId) : e.isFor k i = true ↔ e.kind = k ∧ e.inst = i := by
  simp [PendingEntry.isFor]

@[simp] theorem isFor_merge (e : PendingEntry) (k k' : CauseKind) (i i' : StationId) (l : Bool) :
    (e.merge k i l).isFor k' i' = e.isFor k' i' := by
  unfold PendingEntry.merge
  split <;> rfl

theorem insertFresh_perm (e : PendingEntry) (xs : List PendingEntry) : (insertFresh e xs).Perm (e :: xs) := by
  induction xs with
  | nil => exact .refl _
  | cons x xs ih =>
    unfold insertFresh
    split
    · exact .refl _
    · exact (ih.cons x).trans (.swap e x xs)

/-- A new entry joins its own pair alone. -/
theorem filter_insertFresh_other {e : PendingEntry} {k : CauseKind} {i : StationId} (h : e.isFor k i = false)
    (xs : List PendingEntry) :
    (insertFresh e xs).filter (fun x => x.isFor k i) = xs.filter fun x => x.isFor k i := by
  induction xs with
  | nil => simp [insertFresh, h]
  | cons x xs ih =>
    unfold insertFresh
    split
    · simp [h]
    · simp only [List.filter_cons, ih]

/-- The first entry of a pair stands alone in it. -/
theorem filter_insertFresh_own {e : PendingEntry} {k : CauseKind} {i : StationId} (h : e.isFor k i = true)
    {xs : List PendingEntry} (n : xs.filter (fun x => x.isFor k i) = []) :
    (insertFresh e xs).filter (fun x => x.isFor k i) = [e] := by
  have := (insertFresh_perm e xs).filter fun x => x.isFor k i
  rw [List.filter_cons, if_pos h, n] at this
  exact List.perm_singleton.1 this

/-- What a delivered firing makes of its pair's entries: merged, or one new entry (R157). -/
theorem filter_deliver_own (q : PendingSet) (k : CauseKind) (i : StationId) (r : Release) (l : Bool) :
    (q.deliver k i r l).all.filter (fun e => e.isFor k i) =
      if q.all.filter (fun e => e.isFor k i) = [] then
        [{ kind := k, inst := i, release := r, count := 1, locked := l }]
      else (q.all.filter fun e => e.isFor k i).map (PendingEntry.merge k i l) := by
  unfold PendingSet.deliver
  have any : q.all.any (fun e => e.isFor k i) = true ↔ q.all.filter (fun e => e.isFor k i) ≠ [] := by
    simp [List.filter_eq_nil_iff]
  by_cases h : q.all.filter (fun e => e.isFor k i) = []
  · have n : ¬ q.all.any (fun e => e.isFor k i) = true := fun t => any.1 t h
    rw [if_neg n, if_pos h]
    simp only [PendingSet.all, List.filter_append, List.append_eq_nil_iff] at h ⊢
    rw [h.1, filter_insertFresh_own (by simp [PendingEntry.isFor]) h.2, List.nil_append]
  · rw [if_pos (any.2 h), if_neg h]
    simp [PendingSet.all, List.filter_append, List.filter_map, Function.comp_def]

/-- A delivered firing leaves every other pair's entries as they were. -/
theorem filter_deliver_other (q : PendingSet) {k k' : CauseKind} {i i' : StationId} (h : ¬ (k = k' ∧ i = i'))
    (r : Release) (l : Bool) :
    (q.deliver k i r l).all.filter (fun e => e.isFor k' i') = q.all.filter fun e => e.isFor k' i' := by
  have keep : ∀ xs : List PendingEntry, (xs.map (PendingEntry.merge k i l)).filter (fun e => e.isFor k' i') =
      xs.filter fun e => e.isFor k' i' := by
    intro xs
    induction xs with
    | nil => rfl
    | cons x xs ih =>
      simp only [List.map_cons, List.filter_cons, isFor_merge, ih]
      split
      · next t =>
        have : x.isFor k i = false := by
          rw [isFor_iff] at t
          simp only [PendingEntry.isFor, t.1, t.2, Bool.and_eq_false_iff, beq_eq_false_iff_ne]
          by_contra n
          simp only [not_or, not_not] at n
          exact h ⟨n.1.symm, n.2.symm⟩
        simp [PendingEntry.merge, this]
      · rfl
  unfold PendingSet.deliver
  split
  · simp only [PendingSet.all, List.filter_append, keep]
  · simp only [PendingSet.all, List.filter_append]
    rw [filter_insertFresh_other]
    simp only [PendingEntry.isFor, Bool.and_eq_false_iff, beq_eq_false_iff_ne]
    by_contra n
    simp only [not_or, not_not] at n
    exact h n

@[simp] theorem fire_routes (x : Router) (k : CauseKind) (i : StationId) (l : Bool) :
    (x.fire k i l).routes = x.routes := rfl

@[simp] theorem conditionEnded_routes (x : Router) (k : CauseKind) (i : StationId) :
    (x.conditionEnded k i).routes = x.routes := rfl

@[simp] theorem settle_routes (x : Router) : x.settle.routes = x.routes := rfl

/-- A firing leaves every other pair's entries as they were. -/
theorem fire_agrees_other (x : Router) {k k' : CauseKind} {i i' : StationId} (h : ¬ (k = k' ∧ i = i')) (l : Bool)
    (p : Port) : (x.fire k i l).AgreesAt x k' i' p := by
  unfold Router.AgreesAt Router.fire
  simp only [look_tabulate]
  split
  · exact filter_deliver_other _ h _ _
  · rfl

/-- A firing does the same to its pair's entries wherever they are the same. -/
theorem fire_agrees {x y : Router} {k : CauseKind} {i : StationId} {p : Port} (r : x.routes = y.routes)
    (h : x.AgreesAt y k i p) (l : Bool) : (x.fire k i l).AgreesAt (y.fire k i l) k i p := by
  unfold Router.AgreesAt at *
  simp only [Router.fire, look_tabulate, r]
  split
  · rw [filter_deliver_own, filter_deliver_own, h]
  · exact h

/-- An end report leaves every other pair's entries as they were. -/
theorem conditionEnded_agrees_other (x : Router) {k k' : CauseKind} {i i' : StationId} (h : ¬ (k = k' ∧ i = i'))
    (p : Port) : (x.conditionEnded k i).AgreesAt x k' i' p := by
  unfold Router.AgreesAt Router.conditionEnded
  simp only [look_tabulate, PendingSet.all, List.filter_append, List.filter_filter]
  have : ∀ e : PendingEntry, (e.isFor k' i' && !(e.isFor k i && e.release == .clear)) = e.isFor k' i' := by
    intro e
    by_cases t : e.isFor k' i' = true
    · have : e.isFor k i = false := by
        by_contra n
        rw [Bool.not_eq_false] at n
        rw [isFor_iff] at t n
        exact h ⟨n.1.symm.trans t.1, n.2.symm.trans t.2⟩
      simp [t, this]
    · simp [t]
  simp only [this]

/-- What an end report leaves of its pair's entries: those with release ACK (R159). -/
theorem filter_conditionEnded_own (x : Router) (k : CauseKind) (i : StationId) (p : Port) :
    (look (x.conditionEnded k i).sets p).all.filter (fun e => e.isFor k i) =
      ((look x.sets p).all.filter fun e => e.isFor k i).filter fun e => e.release != .clear := by
  have : ∀ e : PendingEntry, (e.isFor k i && !(e.isFor k i && e.release == .clear)) =
      (e.release != .clear && e.isFor k i) := by
    intro e
    cases e.isFor k i <;> cases e.release <;> rfl
  simp only [Router.conditionEnded, look_tabulate, PendingSet.all, List.filter_append, List.filter_filter, this]

/-- An end report does the same to its pair's entries wherever they are the same. -/
theorem conditionEnded_agrees {x y : Router} {k : CauseKind} {i : StationId} {p : Port} (h : x.AgreesAt y k i p) :
    (x.conditionEnded k i).AgreesAt (y.conditionEnded k i) k i p := by
  unfold Router.AgreesAt at *
  rw [filter_conditionEnded_own, filter_conditionEnded_own, h]

/-- The end of an event moves no pair's entries. -/
theorem settle_agrees (x : Router) (k : CauseKind) (i : StationId) (p : Port) : x.settle.AgreesAt x k i p := by
  simp [Router.AgreesAt, Router.settle, PendingSet.settle, PendingSet.all]

/-- A source event leaves every pair's entries but those of STATS-FREEZE. -/
theorem statEvent_agrees (s : State) (x : StatSource) (m : Nat) (q : Port) {k : CauseKind} (h : k ≠ .statsFreeze)
    (i : StationId) (p : Port) : (s.statEvent x m q).router.AgreesAt s.router k i p := by
  unfold State.statEvent
  split
  · rfl
  · simp only []
    split
    · unfold State.statFreeze
      split
      · rfl
      · exact fire_agrees_other _ (fun e => h e.1.symm) _ _
    · rfl

/-- An evaluation of raise-ready leaves every pair's entries but those of RAISE-READY of its station. -/
theorem evalReady_agrees (s : State) (j : StationId) {k : CauseKind} {i : StationId} (h : ¬ (k = .raiseReady ∧ i = j))
    (p : Port) : (s.evalReady j).router.AgreesAt s.router k i p := by
  have h' : ¬ (CauseKind.raiseReady = k ∧ j = i) := fun e => h ⟨e.1.symm, e.2.symm⟩
  unfold State.evalReady
  split
  · split
    · rfl
    · exact fire_agrees_other _ h' _ _
  · split
    · exact conditionEnded_agrees_other _ h' _
    · rfl

/-- The freezing of the unit reads and changes the statistics alone, but for the firing of STATS-FREEZE. -/
theorem statFreeze_stats (s : State) (why : FreezeReason) :
    (s.statFreeze why).stats =
      if s.stats.frozen then s.stats else { s.stats with frozen := true, reason := why } := by
  unfold State.statFreeze
  split <;> rfl

/-- A source event reads and changes the statistics alone, but for the firing of STATS-FREEZE. -/
theorem statEvent_stats_congr {s t : State} (h : s.stats = t.stats) (x : StatSource) (m : Nat) (p : Port) :
    (s.statEvent x m p).stats = (t.statEvent x m p).stats := by
  simp only [State.statEvent, h]
  split
  · exact h
  · split
    · rw [statFreeze_stats, statFreeze_stats]
      rfl
    · rfl

/-- A filter's test reads and changes the statistics alone, but for the firing of STATS-FREEZE. -/
theorem filterOne_stats_congr {s t : State} (h : s.stats = t.stats) (p : Port) (k g : Byte) (n : Fin 2) :
    (s.filterOne p k g n).stats = (t.filterOne p k g n).stats := by
  simp only [State.filterOne, h]
  split
  · exact statEvent_stats_congr h _ _ _
  · exact h

/-- The statistics after a list of source events depend on the statistics before them alone. -/
theorem statEvents_stats_congr {s t : State} (h : s.stats = t.stats) (es : List SourceEvent) :
    (s.statEvents es).stats = (t.statEvents es).stats := by
  induction es generalizing s t with
  | nil => exact h
  | cons e es ih => exact ih (statEvent_stats_congr h _ _ _)

end Sys2Proof.Machine
end

