-- ==== Sys2Proof/Laws/Orders.lean ====
section
/-! SUPPORT. The free orders of parts that happen at the same instant: what is woven is an interleaving, every
interleaving can be woven, and the one lemma that says what `State.together` does (`together_order`). -/

namespace Sys2Proof.Machine

/-- Lists one after the other are an interleaving. -/
theorem Interleaves.listed {α : Type} (ls : List (List α)) : Interleaves ls ls.flatten := by
  have step : ∀ (n : Nat) (b ls : List (List α)), b.flatten = [] → ls.flatten.length = n →
      Interleaves (b ++ ls) ls.flatten := by
    intro n
    induction n with
    | zero =>
      intro b ls hb h
      rw [List.length_eq_zero_iff.1 h]
      exact .done _ (by rw [List.flatten_append, hb, List.length_eq_zero_iff.1 h]; rfl)
    | succ n ih =>
      intro b ls hb h
      induction ls generalizing b with
      | nil => simp at h
      | cons l ls ihl =>
        cases l with
        | nil =>
          have := ihl (b ++ [[]]) (by simp [hb]) (by simpa using h)
          simpa using this
        | cons x l =>
          have := ih b (l :: ls) hb (by simpa using h)
          exact .next b ls l x _ this
  exact step _ [] ls rfl rfl

/-- With no head to give up, every list is empty. -/
theorem takeNth_none {α : Type} {n : Nat} {ls : List (List α)} (h : takeNth n ls = none)
    (lt : n < ls.countP (fun l => !l.isEmpty) ∨ ls.countP (fun l => !l.isEmpty) = 0) : ls.flatten = [] := by
  induction ls generalizing n with
  | nil => rfl
  | cons l ls ih =>
    cases l with
    | nil =>
      rw [takeNth] at h
      simpa using ih (by simpa using h) (by simpa using lt)
    | cons x l =>
      cases n with
      | zero => simp [takeNth] at h
      | succ n =>
        rw [takeNth] at h
        have h' : takeNth n ls = none := by simpa using h
        simp only [List.countP_cons, List.isEmpty_cons, Bool.not_false, if_true] at lt
        have lt' : n < ls.countP fun l => !l.isEmpty := by omega
        have none : ls.flatten = [] := ih h' (Or.inl lt')
        have : ls.countP (fun l => !l.isEmpty) = 0 := by
          rw [List.countP_eq_zero]
          intro k hk
          have := List.flatten_eq_nil_iff.1 none k hk
          simp [this]
        omega

/-- What is woven is an interleaving. -/
theorem weave_interleaves {α : Type} (ns : List Nat) (ls : List (List α)) : Interleaves ls (weave ns ls) := by
  induction ns generalizing ls with
  | nil => exact .listed ls
  | cons n ns ih =>
    unfold weave
    split
    · next x rest e =>
      obtain ⟨b, l, a, rfl, rfl⟩ := takeNth_some e
      exact .next b a l x _ (ih _)
    · next e =>
      refine .done _ (takeNth_none e ?_)
      rcases Nat.eq_zero_or_pos (ls.countP fun l => !l.isEmpty) with h | h
      · exact Or.inr h
      · exact Or.inl (Nat.mod_lt _ h)

/-- A list that has a head can be made the next to give it up. -/
theorem takeNth_reaches {α : Type} (b : List (List α)) (x : α) (l : List α) (a : List (List α)) :
    ∃ n, n < (b ++ (x :: l) :: a).countP (fun l => !l.isEmpty) ∧
      takeNth n (b ++ (x :: l) :: a) = some (x, b ++ l :: a) := by
  induction b with
  | nil => exact ⟨0, by simp, by simp [takeNth]⟩
  | cons k b ih =>
    obtain ⟨n, lt, e⟩ := ih
    cases k with
    | nil => exact ⟨n, by simpa using lt, by simp [takeNth, e]⟩
    | cons y k => exact ⟨n + 1, by simpa using lt, by simp [takeNth, e]⟩

/-- Every interleaving is woven by some choices. -/
theorem interleaving_woven {α : Type} {ls : List (List α)} {order : List α} (h : Interleaves ls order) :
    ∃ ns, ns.length = ls.flatten.length ∧ weave ns ls = order := by
  induction h with
  | done ls e => exact ⟨[], by simp [e], e⟩
  | next b a l x order _ ih =>
    obtain ⟨ns, len, e⟩ := ih
    obtain ⟨n, lt, t⟩ := takeNth_reaches b x l a
    refine ⟨n :: ns, ?_, ?_⟩
    · simp only [List.length_cons, len, List.flatten_append, List.flatten_cons, List.length_append]
      omega
    · unfold weave
      rw [Nat.mod_eq_of_lt lt, t]
      simp only [e]

/-- An interleaving has the members of its lists. -/
theorem Interleaves.perm {α : Type} {ls : List (List α)} {order : List α} (h : Interleaves ls order) :
    order.Perm ls.flatten := by
  induction h with
  | done ls e => rw [e]
  | next b a l x order _ ih =>
    simp only [List.flatten_append, List.flatten_cons, List.cons_append] at ih ⊢
    exact (ih.cons x).trans List.perm_middle.symm

/-- Two parts come in one order or in the other. -/
theorem interleaves_two {α : Type} {x y : α} {order : List α} (h : Interleaves [[x], [y]] order) :
    order = [x, y] ∨ order = [y, x] := by
  have p : order.Perm [x, y] := by simpa using h.perm
  match order, p.length_eq, p with
  | [a, b], _, p =>
    have one : ∀ {c d : α}, [c].Perm [d] → c = d := fun q => by simpa using q
    rcases (by simpa using p.subset (List.mem_cons_self ..) : a = x ∨ a = y) with rfl | rfl
    · exact Or.inl (by rw [one p.cons_inv])
    · exact Or.inr (by rw [one (p.trans (.swap ..)).cons_inv])

/-- What parts of the same instant do: they act one after the other in an interleaving of their lists, the listed one
unless they freeze the Statistics Unit, and only then free choices are used up. -/
theorem together_order {α : Type} (s : State) (act : State → α → State) (parts : List (List α)) :
    ∃ order n, Interleaves parts order ∧ s.together act parts = order.foldl act { s with choices := n } ∧
      (s.stats.frozen = true ∨ (parts.flatten.foldl act s).stats.frozen = false → order = parts.flatten ∧ n = s.choices) := by
  unfold State.together State.chooseOrder
  simp only
  split
  · next h =>
    refine ⟨_, _, weave_interleaves _ _, rfl, fun c => ?_⟩
    simp only [Bool.and_eq_true, Bool.not_eq_eq_eq_not, Bool.not_true] at h
    simp [h.1, h.2] at c
  · exact ⟨_, _, .listed _, rfl, fun _ => ⟨rfl, rfl⟩⟩

end Sys2Proof.Machine
end

