-- ==== Sys2Proof/Laws/Ports.lean ====
section
/-! SUPPORT. What serving a request does to the ports, and the one lemma a request's statement goes through: on a port
that listens, a request is served at once (`request_of_listening`). -/

namespace Sys2Proof.Machine

set_option linter.unusedSimpArgs false

/-- Between events the end of an event changes nothing. -/
theorem endEvent_of_settled {s : State} (h : ∀ p, (look s.router.sets p).fresh = []) : s.endEvent = s := by
  have : s.router.settle = s.router := by
    have h' : (fun p => (look s.router.sets p).settle) = look s.router.sets := by
      funext p
      have := h p
      cases hq : look s.router.sets p
      simp_all [PendingSet.settle, PendingSet.all]
    simp only [Router.settle, h', tabulate_look]
  simp only [State.endEvent, this]
  rfl

/-- After the end of an event every pending set is settled. -/
theorem endEvent_settled (s : State) (p : Port) : (look s.endEvent.router.sets p).fresh = [] := by
  simp [State.endEvent, Router.settle, PendingSet.settle]

/-- The handlers, replies, flags and links of `t` are those of `s`, and no request joined an empty queue. -/
structure PortsKept (s t : State) : Prop where
  handler : ∀ q, (t.port q).handler = (s.port q).handler
  replies : ∀ q, (t.port q).replies = (s.port q).replies
  ferr : ∀ q, (t.port q).ferr = (s.port q).ferr
  link : ∀ q, (t.port q).link = (s.port q).link
  empty : ∀ q, (s.port q).requests = [] → (t.port q).requests = []

theorem PortsKept.of_ports {s t : State} (h : t.ports = s.ports) : PortsKept s t := by
  have h' : ∀ q, t.port q = s.port q := port_congr h
  constructor <;> intro q <;> simp [h' q]

theorem PortsKept.trans {s t u : State} (h : PortsKept s t) (k : PortsKept t u) : PortsKept s u :=
  { handler := fun q => (k.handler q).trans (h.handler q), replies := fun q => (k.replies q).trans (h.replies q)
    ferr := fun q => (k.ferr q).trans (h.ferr q), link := fun q => (k.link q).trans (h.link q)
    empty := fun q e => k.empty q (h.empty q e) }

theorem writeDepth_kept (s : State) (p : Port) (v : Nat) : PortsKept s (s.writeDepth p v) := by
  constructor <;> intro q <;> simp only [State.writeDepth, dropEvents_reads, port_updPort] <;> split <;>
    simp_all

theorem storeParam_kept (s : State) (id k : Nat) (v : BitVec 32) : PortsKept s (storeParam s id k v) := by
  simp only [storeParam]
  (repeat' split) <;>
    first
    | (refine PortsKept.of_ports ?_; simp)
    | exact writeDepth_kept s _ _

theorem serveParamSet_kept (s : State) (id k : Byte) (v : BitVec 32) : PortsKept s (serveParamSet s id k v).1 := by
  unfold serveParamSet
  (repeat' split) <;> first | exact PortsKept.of_ports rfl | exact storeParam_kept _ _ _ _

/-- Serving any request but ENG-HALT keeps the ports, but for what a write of QUEUE_DEPTH discards. -/
theorem serveBody_kept (s : State) (p : Port) (r : Request) (h : r.body ≠ .engHalt) :
    PortsKept s (serveBody s p r).1 := by
  obtain ⟨tag, body⟩ := r
  cases body
  case engHalt => exact absurd rfl h
  case paramSet id index value =>
    show PortsKept s (supervisorOnly p s (serveParamSet s id index value)).1
    unfold supervisorOnly
    split
    · exact serveParamSet_kept _ _ _ _
    · exact PortsKept.of_ports rfl
  all_goals
    refine PortsKept.of_ports ?_
    simp only [serveBody, supervisorOnly]
    (repeat' split) <;> simp [answered, roleRefused]

theorem takingEnds_ports (s : State) (p : Port) (b : Body) : (s.takingEnds p b).ports = s.ports := by
  unfold State.takingEnds
  split <;> simp

/-- A handler that can take nothing still can take nothing where the ports are kept. -/
theorem canTake_of_kept {s t : State} (k : PortsKept s t) {q : Port} (h : s.canTake q = false) :
    t.canTake q = false := by
  simp only [State.canTake, k.handler, k.replies] at *
  by_cases hs : (s.port q).requests = []
  · simp [k.empty q hs]
  · have : (s.port q).requests.isEmpty = false := by simpa using hs
    simp only [this, Bool.not_false, Bool.and_true] at h
    rw [Bool.and_right_comm, h, Bool.false_and]

/-- Serving a request but ENG-HALT adds its answer to its own port's replies, or makes that handler BUSY. -/
theorem serve_canTake {s : State} {p : Port} {r : Request} (hr : r.body ≠ .engHalt)
    (he : (s.port p).requests = []) (ht : ∀ q, s.canTake q = false) (q : Port) : (s.serve p r).canTake q = false := by
  have k : PortsKept s (serveBody (s.takingEnds p r.body) p r).1 :=
    (PortsKept.of_ports (takingEnds_ports _ _ _)).trans (serveBody_kept _ _ _ hr)
  have hq := canTake_of_kept k (ht q)
  have hp := k.empty p he
  unfold State.serve
  by_cases e : p = q
  · subst e
    split <;> rename_i t x h <;> rw [h] at hp <;> simp_all [State.canTake, State.pushAnswer]
  · split <;> rename_i t x h <;> rw [h] at hq <;> simpa [State.canTake, State.pushAnswer, e, Ne.symm e] using hq

theorem pump_of_quiet {s : State} (h : ∀ q, s.canTake q = false) (n : Nat) : s.pump n = s := by
  cases n with
  | zero => rfl
  | succ n =>
    have : allPorts.filter s.canTake = [] := by simp [h]
    simp only [State.pump, this]

/-- The ports that satisfy a test only p satisfies: p alone. -/
theorem filter_allPorts_single {f : Port → Bool} {p : Port} (hp : f p = true) (h : ∀ q, q ≠ p → f q = false) :
    allPorts.filter f = [p] := by
  have : f = fun q => decide (q = p) := by
    funext q
    by_cases e : q = p
    · simp [e, hp]
    · simp [e, h q e]
  subst this
  revert p
  decide

/-- On a port that listens a request but ENG-HALT that reaches it is served at once, as one event. -/
theorem arrive_of_listening {s : State} {p : Port} {r : Request} (h : s.Listening p) (hr : r.body ≠ .engHalt) :
    s.arrive p r = (s.serve p r).endEvent := by
  have hd : (s.port p).requests.length < (s.port p).depth.frames := by
    rw [h.empty]; cases (s.port p).depth <;> decide
  have hq : s.enqueue p r = s.updPort p fun x => { x with requests := [r] } := by
    simp only [State.enqueue, if_pos hd]
    simp only [State.updPort, h.empty, List.nil_append]
  have hs : (s.enqueue p r).endEvent = s.enqueue p r := endEvent_of_settled (by simp [hq, h.quiet.settled])
  have hl : (s.enqueue p r).port p = { s.port p with requests := [r] } := by simp [hq]
  have hc : (s.enqueue p r).chosen p = 0 := by
    unfold State.chosen
    split
    · rfl
    · rw [hl]; simp only [List.findIdx?_cons, List.findIdx?_nil]; split <;> simp
  have ht : (s.enqueue p r).takeOne p = (s.serve p r).endEvent := by
    have hback : ((s.enqueue p r).updPort p fun x => { x with requests := x.requests.eraseIdx 0 }) = s := by
      rw [hq, updPort_updPort]
      have : (s.updPort p fun x => { x with requests := [] }) = s := by
        conv_rhs => rw [← updPort_self s p]
        simp only [State.updPort, h.empty.symm]
      simpa using this
    unfold State.takeOne
    rw [hc]
    simp only [hl, List.getElem?_cons_zero, hback]
  have hone : allPorts.filter (s.enqueue p r).canTake = [p] := by
    apply filter_allPorts_single
    · simp [State.canTake, hl, h.idle, h.room]
    · intro q e
      have := h.quiet.taken q
      simpa [State.canTake, hq, Ne.symm e] using this
  have hn : ∃ n, (s.enqueue p r).queued = n + 1 := by
    have : 0 < (s.enqueue p r).queued := by
      unfold State.queued
      refine lt_of_lt_of_le (b := ((s.enqueue p r).port p).requests.length) (by simp [hl]) ?_
      exact List.single_le_sum (by simp) _ (List.mem_map.2 ⟨p, mem_allPorts p, rfl⟩)
    exact ⟨_, (Nat.succ_pred_eq_of_pos this).symm⟩
  obtain ⟨n, hn⟩ := hn
  have hend : ∀ q, ((s.serve p r).endEvent).canTake q = false := by
    intro q
    have := serve_canTake hr h.empty h.quiet.taken q
    simpa [State.canTake] using this
  unfold State.arrive State.runHandlers
  rw [hs, hn]
  simp only [State.pump, hone, ht]
  exact pump_of_quiet hend n

/-- Whether a port listens does not depend on the mark of a FAULT-CLEAR. -/
theorem listening_setLastClear {s : State} {p : Port} (h : s.Listening p) (x : Option StationId) :
    (s.setLastClear x).Listening p :=
  { quiet := { settled := h.quiet.settled, taken := h.quiet.taken }, empty := h.empty, idle := h.idle, room := h.room }

theorem serves_setLastClear {s : State} {p : Port} (h : s.Serves p) (x : Option StationId) :
    (s.setLastClear x).Serves p :=
  ⟨listening_setLastClear h.listening x, h.unlocked⟩

/-- On a port that listens a request row but ENG-HALT is served at once, as one event. -/
theorem request_of_listening {s : State} {p : Port} {r : Request} (h : s.Listening p) (hr : r.body ≠ .engHalt) :
    s.request p r = (s.nextEvent.serve p r).endEvent :=
  arrive_of_listening (listening_setLastClear h none) hr

/-- With no interlock open on the port, taking a request ends nothing (R172, step 1). -/
theorem takingEnds_of_unlocked {s : State} {p : Port} (h : s.locked p = false) (b : Body) : s.takingEnds p b = s := by
  simp only [State.takingEnds, State.locked] at h ⊢
  cases hp : roleOf p with
  | station i =>
    simp only [hp] at h ⊢
    rcases endAtTaking_eq s i b with e | e
    · exact e
    · rw [e, State.breakInterlock, h]
      exact if_neg (by simp)
  | storage => rfl
  | supervisor => rfl

/-- An answer joins the reply queue of a state in which no FAULT-CLEAR is the last event. -/
theorem pushAnswer_replyOn {u : State} (h : u.lastClear = none) (p : Port) (k g : Byte) (c : AnswerCode)
    (x : BitVec 64) : u.pushAnswer p { kind := k, tag := g, code := c, payload := x } = u.replyOn p k g c x := by
  have : { u with lastClear := none } = u := by rw [← h]
  rw [State.replyOn, this]

/-- A served request that its block answers leaves that block's state with the answer in the reply queue. -/
theorem request_of_answered {s u : State} {p : Port} {r : Request} {x : Reply} (h : s.Serves p)
    (hr : r.body ≠ .engHalt) (hb : serveBody s.nextEvent p r = (u, some x)) :
    s.request p r =
      (u.pushAnswer p { kind := r.body.kind, tag := r.tag, code := x.code, payload := x.payload }).endEvent := by
  have none_ends : s.nextEvent.takingEnds p r.body = s.nextEvent :=
    takingEnds_of_unlocked (s := s.nextEvent) h.unlocked r.body
  rw [request_of_listening h.listening hr, State.serve, none_ends, hb]

/-- The same for every request but FAULT-CLEAR of a station, which marks its station. -/
theorem request_of_answer {s u : State} {p : Port} {r : Request} {x : Reply} (h : s.Serves p)
    (hr : r.body ≠ .engHalt) (hb : serveBody s.nextEvent p r = (u, some x)) (hc : u.lastClear = none) :
    s.request p r = (u.replyOn p r.body.kind r.tag x.code x.payload).endEvent := by
  rw [request_of_answered h hr hb, pushAnswer_replyOn hc]

/-- An answer joins without touching the router, so that a settled state stays settled. -/
theorem replyOn_endEvent {u : State} (h : ∀ p, (look u.router.sets p).fresh = []) (p : Port) (k g : Byte)
    (c : AnswerCode) (x : BitVec 64) : (u.replyOn p k g c x).endEvent = u.replyOn p k g c x :=
  endEvent_of_settled h

/-- A request whose service leaves the pending sets settled. -/
theorem request_of_settled_answer {s u : State} {p : Port} {r : Request} {x : Reply} (h : s.Serves p)
    (hr : r.body ≠ .engHalt) (hb : serveBody s.nextEvent p r = (u, some x)) (hc : u.lastClear = none)
    (hu : ∀ q, (look u.router.sets q).fresh = []) :
    s.request p r = u.replyOn p r.body.kind r.tag x.code x.payload := by
  rw [request_of_answer h hr hb hc, replyOn_endEvent hu]

/-- No interlock opens on the supervisor port. -/
theorem serves_supervisor {s : State} (h : s.Listening supervisorPort) : s.Serves supervisorPort := ⟨h, rfl⟩

/-- No interlock opens on the storage port. -/
theorem serves_storage {s : State} (h : s.Listening storagePort) : s.Serves storagePort := ⟨h, rfl⟩

/-- The role of a station port. -/
@[simp] theorem roleOf_stationPort (i : StationId) : roleOf (stationPort i) = .station i := by
  simp [roleOf, stationPort]

@[simp] theorem roleOf_supervisorPort : roleOf supervisorPort = .supervisor := rfl
@[simp] theorem roleOf_storagePort : roleOf storagePort = .storage := rfl

/-- A request row is its request reaching its port. -/
theorem exec_of_requestOf {c : Instr} {p : Port} {r : Request} (h : requestOf c = some (p, r)) (s : State) :
    exec c s = .next (s.request p r) := by
  cases c <;> simp only [requestOf, Option.some.injEq, Prod.mk.injEq, reduceCtorEq] at h <;>
    (obtain ⟨rfl, rfl⟩ := h; rfl)

/-! ### The handlers end -/

/-- No port's queue is longer in `t` than in `s`. -/
def QueuesShrink (s t : State) : Prop := ∀ q, (t.port q).requests.length ≤ (s.port q).requests.length

theorem QueuesShrink.of_ports {s t : State} (h : t.ports = s.ports) : QueuesShrink s t := fun q => by
  rw [port_congr h q]

theorem QueuesShrink.trans {s t u : State} (h : QueuesShrink s t) (k : QueuesShrink t u) : QueuesShrink s u := fun q =>
  (k q).trans (h q)

theorem updPort_shrinks {s : State} {p : Port} {f : PortState → PortState}
    (h : (f (s.port p)).requests.length ≤ (s.port p).requests.length) : QueuesShrink s (s.updPort p f) := by
  intro q
  simp only [port_updPort]
  split
  · next e => subst e; exact h
  · exact le_rfl

theorem writeDepth_shrinks (s : State) (p : Port) (v : Nat) : QueuesShrink s (s.writeDepth p v) := by
  intro q
  simp only [State.writeDepth, dropEvents_reads, port_updPort]
  split
  · next e => subst e; simp
  · exact le_rfl

theorem storeParam_shrinks (s : State) (id k : Nat) (v : BitVec 32) : QueuesShrink s (storeParam s id k v) := by
  simp only [storeParam]
  (repeat' split) <;>
    first
    | (refine QueuesShrink.of_ports ?_; simp)
    | exact writeDepth_shrinks s _ _

theorem releaseHeld_shrinks (s : State) (p : Port) (a : Answer) : QueuesShrink s (s.releaseHeld p a) :=
  updPort_shrinks le_rfl

theorem answerHeldTakes_shrinks (s : State) : QueuesShrink s s.answerHeldTakes := by
  have one : ∀ (t : State) (h : HeldTake), QueuesShrink t (t.answerHeldTake h) := fun t h =>
    (QueuesShrink.of_ports (by simp)).trans (releaseHeld_shrinks (answerTake t h.station).1 _ _)
  have all : ∀ (l : List HeldTake) (t : State), QueuesShrink t (l.foldl State.answerHeldTake t) := by
    intro l
    induction l with
    | nil => exact fun t q => le_rfl
    | cons h l ih => exact fun t => (one t h).trans (ih _)
  exact (QueuesShrink.of_ports rfl).trans (all _ _)

theorem answerHeldDispatch_shrinks (s : State) : QueuesShrink s s.answerHeldDispatch := by
  unfold State.answerHeldDispatch
  split
  · exact fun q => le_rfl
  · exact (QueuesShrink.of_ports rfl).trans (releaseHeld_shrinks _ _ _)

theorem evalReadyAll_shrinks (s : State) : QueuesShrink s s.evalReadyAll := QueuesShrink.of_ports (by simp)

theorem haltEngine_shrinks (s : State) : QueuesShrink s s.haltEngine := by
  have cancelled : (s.stopEngine.together State.cancelInterlock (stationIds.map fun i => [i])).ports = s.ports :=
    (together_keeps State.ports _ _ (fun t n => rfl) (fun t i => by simp) _).trans (by simp)
  exact (((QueuesShrink.of_ports cancelled).trans (answerHeldTakes_shrinks _)).trans (evalReadyAll_shrinks _)).trans
    (answerHeldDispatch_shrinks _)

/-- Serving a request adds to no request queue. -/
theorem serveBody_shrinks (s : State) (p : Port) (r : Request) : QueuesShrink s (serveBody s p r).1 := by
  obtain ⟨tag, body⟩ := r
  cases body
  case engHalt =>
    show QueuesShrink s (supervisorOnly p s (serveEngHalt s)).1
    unfold supervisorOnly serveEngHalt
    split
    · simp only [answered]
      split
      · exact fun q => le_rfl
      · exact haltEngine_shrinks s
    · exact fun q => le_rfl
  case paramSet id index value =>
    show QueuesShrink s (supervisorOnly p s (serveParamSet s id index value)).1
    unfold supervisorOnly
    split
    · simp only [answered]
      unfold serveParamSet
      (repeat' split) <;> first | exact QueuesShrink.of_ports rfl | exact storeParam_shrinks _ _ _ _
    · exact fun q => le_rfl
  all_goals
    refine QueuesShrink.of_ports ?_
    simp only [serveBody, supervisorOnly]
    (repeat' split) <;> simp [answered, roleRefused]

theorem serve_shrinks (s : State) (p : Port) (r : Request) : QueuesShrink s (s.serve p r) := by
  have k : QueuesShrink s (serveBody (s.takingEnds p r.body) p r).1 :=
    (QueuesShrink.of_ports (takingEnds_ports _ _ _)).trans (serveBody_shrinks _ _ _)
  unfold State.serve
  split <;> rename_i t x h <;> rw [h] at k <;> exact k.trans (updPort_shrinks le_rfl)

/-- The place the handler chooses is a place of the queue (R170). -/
theorem chosen_lt {s : State} {p : Port} (h : (s.port p).requests ≠ []) : s.chosen p < (s.port p).requests.length := by
  have pos : 0 < (s.port p).requests.length := List.length_pos_iff.2 h
  unfold State.chosen
  split
  · exact pos
  · cases e : (s.port p).requests.findIdx? fun r => s.params.isUrgent r.body.kind with
    | none => exact pos
    | some n => exact (List.findIdx?_eq_some_iff_getElem.1 e).1

/-- A taking shortens the queue of its port, and lengthens none. -/
theorem takeOne_shrinks {s : State} {p : Port} (h : (s.port p).requests ≠ []) :
    QueuesShrink s (s.takeOne p) ∧ ((s.takeOne p).port p).requests.length < (s.port p).requests.length := by
  have lt := chosen_lt h
  unfold State.takeOne
  simp only [List.getElem?_eq_getElem lt]
  have first : QueuesShrink s (s.updPort p fun x => { x with requests := x.requests.eraseIdx (s.chosen p) }) :=
    updPort_shrinks (by simp [List.length_eraseIdx, lt])
  have second := serve_shrinks (s.updPort p fun x => { x with requests := x.requests.eraseIdx (s.chosen p) }) p
    ((s.port p).requests[s.chosen p])
  have third : ∀ t : State, QueuesShrink t t.endEvent := fun t => QueuesShrink.of_ports (by simp)
  refine ⟨(first.trans second).trans (third _), ?_⟩
  refine lt_of_le_of_lt ((second.trans (third _)) p) ?_
  simp only [port_updPort, if_true, List.length_eraseIdx, lt]
  omega

theorem takeOne_queued {s : State} {p : Port} (h : (s.port p).requests ≠ []) : (s.takeOne p).queued < s.queued := by
  obtain ⟨all, own⟩ := takeOne_shrinks h
  unfold State.queued
  exact List.sum_lt_sum _ _ (fun q _ => all q) ⟨p, mem_allPorts p, own⟩

theorem canTake_waiting {s : State} {p : Port} (h : s.canTake p = true) : (s.port p).requests ≠ [] := by
  intro e
  simp [State.canTake, e] at h

/-- Fuel for every waiting request is fuel enough: more of it takes nothing more. -/
theorem pump_enough {n : Nat} : ∀ {s : State}, s.queued ≤ n → s.pump n = s.runHandlers := by
  have none : ∀ {s : State}, allPorts.filter s.canTake = [] → ∀ m, s.pump m = s := fun {s} e m =>
    pump_of_quiet (fun q => by
      by_contra c
      exact List.not_mem_nil (e ▸ List.mem_filter.2 ⟨mem_allPorts q, by simpa using c⟩)) m
  induction n using Nat.strong_induction_on with
  | _ n ih =>
    intro s hn
    unfold State.runHandlers
    -- what one more taking leaves is stable by the induction hypothesis
    have step : ∀ (t : State) (p : Port), t.ports = s.ports → s.canTake p = true → ∀ a b, s.queued = b + 1 →
        n = a + 1 → (t.takeOne p).pump a = (t.takeOne p).pump b := by
      intro t p ht hp a b hb ha
      have w : (t.port p).requests ≠ [] := by rw [port_congr ht]; exact canTake_waiting hp
      have lt : (t.takeOne p).queued < s.queued := by
        have := takeOne_queued w
        have e : t.queued = s.queued := by unfold State.queued; simp only [port_congr ht]
        omega
      rw [ih a (by omega) (by omega : (t.takeOne p).queued ≤ a), ih b (by omega) (by omega : (t.takeOne p).queued ≤ b)]
    cases hq : allPorts.filter s.canTake with
    | nil => rw [none hq, none hq]
    | cons p rest =>
      have able : ∀ q ∈ p :: rest, s.canTake q = true := fun q m => (List.mem_filter.1 (hq ▸ m)).2
      have pos : 0 < s.queued := Nat.lt_of_le_of_lt (Nat.zero_le _) (takeOne_queued (canTake_waiting (able p (by simp))))
      obtain ⟨b, hb⟩ := Nat.exists_eq_succ_of_ne_zero pos.ne'
      obtain ⟨a, ha⟩ := Nat.exists_eq_succ_of_ne_zero (by omega : n ≠ 0)
      subst ha
      rw [hb]
      cases rest with
      | nil =>
        simp only [State.pump, hq]
        exact step s p rfl (able p (by simp)) a b hb rfl
      | cons q rest =>
        simp only [State.pump, hq, State.choose]
        refine step { s with choices := s.choices + 1 } _ rfl (able _ ?_) a b hb rfl
        rw [List.getD_eq_getElem?_getD, List.getElem?_eq_getElem (Nat.mod_lt _ (by simp))]
        exact List.getElem_mem _

end Sys2Proof.Machine
end

