-- ==== Sys2Proof/Tests/Slice0.lean ====
section
/-! SUPPORT. Tests: ill-formed terms that the check refuses, small steps with the manual's numbers, and for every
statement that has hypotheses a state and operands that meet them, clause by clause (`witness_<statement>`). -/

namespace Sys2Proof.Tests

open Sys2Proof.Machine

set_option Elab.async false

/-! ### Well-formedness and the frame's CRC -/

theorem test_illFormed_undefinedKind :
    (Instr.undefinedKind 0 1 11).wellFormed = false ∧ (Instr.undefinedKind 0 1 16).wellFormed = false ∧
      (Instr.undefinedKind 0 1 30).wellFormed = false ∧ (Instr.undefinedKind 0 1 12).wellFormed = true ∧
      (Instr.undefinedKind 0 1 31).wellFormed = true := by decide

theorem test_illFormed_undefinedAction :
    (Instr.undefinedAction 11 1 7).wellFormed = false ∧ (Instr.undefinedAction 11 1 8).wellFormed = true := by decide

theorem test_illFormed_paramSet :
    (Instr.paramSet 11 1 17 0 5).wellFormed = false ∧ (Instr.paramSet 11 1 28 0 5).wellFormed = false ∧
      (Instr.paramSet 11 1 31 0 5).wellFormed = false ∧ (Instr.paramSet 11 1 1 0 200).wellFormed = true := by decide

theorem test_illFormed_faultClear :
    (Instr.faultClear 11 1 255).wellFormed = false ∧ (Instr.faultClear 11 1 9).wellFormed = true := by decide

/-- The check value the manual gives: the CRC of the nine characters "123456789" (R164). -/
theorem test_crc_check_value : crc16 (0x313233343536373839 : BitVec 72) = 0x29B1 := by decide +kernel

/-! ### States -/

def after (s : State) (c : Instr) : State :=
  match exec c s with
  | .next t => t
  | .fault _ | .refused _ => s

/-- Whether an outcome is a next state. -/
def runs : Host.Outcome State Fault Refusal → Bool
  | .next _ => true
  | .fault _ | .refused _ => false

/-- The last answer in a port's reply queue after a command: its code and its payload. -/
def answer (s : State) (c : Instr) (p : Port) : Option (AnswerCode × BitVec 64) :=
  ((after s c).port p).replies.getLast?.map fun a => (a.code, a.payload)

def settings : Params :=
  { Params.default with winShort := 2, winLong := 3, plantRating := 60000, telWmin := 1 }

def past : List HistEntry :=
  [{ number := 6, sample := 40000, source := .summed, clamped := false },
   { number := 5, sample := 39000, source := .summed, clamped := false },
   { number := 4, sample := 41000, source := .summed, clamped := false }]

def online (rating applied meas avail age : Nat) : Station :=
  { Station.reset with
    state := .online, rating := rating, applied := applied, meas := meas, avail := avail, age := age }

/-- One station in every state: 0 and 9 ONLINE (9 about to go STALE), 1 PARKED, 2 FAULTED, 3 STALE (about to be
DEAD), 4 JOINING, 5 and 6 ABSENT (6 with rating 0), 7 ONLINE with an open interlock, 8 ONLINE outside the mask. -/
def entries : Vector Station 10 :=
  #v[online 20000 10000 9000 15000 1,
    { Station.reset with state := .parked, rating := 15000, applied := 4000, avail := 5000, park := some 5000 },
    { Station.reset with state := .faulted, rating := 12500, applied := 8000, statuses := 4, holding := 2, age := 1 },
    { Station.reset with state := .stale, rating := 9000, applied := 2000, age := 27, staleDuration := 24 },
    { Station.reset with state := .joining, rating := 8000 },
    { Station.reset with rating := 10000 },
    Station.reset,
    { online 10000 6000 5000 9000 1 with
      interlock := some { granted := 9000, reserved := 3000, takeTag := 6, publications := 1 } },
    online 5000 1000 900 2000 1,
    online 6000 5000 4500 4000 3]

def record : Published :=
  { Published.cleared with
    number := 6, rating := 60000, sample := 40000, lower := 37000, upper := 43000, plant := .free,
    forecast := 28000, fc := 28000, storageOnline := true, b := -500, allowance := 24000
    mask := #v[true, false, false, false, false, false, false, true, false, true]
    offers := #v[12000, 0, 0, 0, 0, 0, 0, 8000, 0, 4000] }

/-- A running plant: history of three intervals, the record of run 6, the battery ONLINE. -/
def plant : State :=
  { State.reset with
    params := settings
    engine :=
      { run := .running, timer := .running 200, counter := 7, meter := some { value := 70000, tag := 7 }
        history := past, queues := windowExtrema settings past }
    published := record
    stations := entries
    storage := { state := .online, meas := -500, soc := 600, bdis := 8000, bchg := 6000, age := 1, held := none } }

/-- The plant halted. -/
def halted : State := after plant (.engHalt 11 1)

/-- The plant with run 7 in flight and two held takes. -/
def inRun : State := after (after (after plant .timerExpiry) (.ceilTake 0 3)) (.dispTake 10 4)

/-- The plant with frames in progress on ports 0, 7, 10 and 11, an answer waiting on port 0, and port 2 waiting for
select to be released. -/
def framed : State :=
  let half (p : Port) (a : Option Answer) (x : PortState) : PortState :=
    { x with replies := a.toList, link := .inFrame (AnswerHalf.make (plant.statusOf p) a) }
  ((((plant.updPort 0 (half 0 (some { kind := 1, tag := 1, code := .ok, payload := 0 }))).updPort 7 (half 7 none)).updPort
    10 (half 10 none)).updPort 11 (half 11 none)).updPort 2 fun x => { x with link := .awaitRelease }

/-- Port 3 BUSY with a full request queue, port 8 BUSY with room, both in a frame; port 4 with four answers. -/
def crowded : State :=
  let half : Link := .inFrame (AnswerHalf.make 0 none)
  let r : Request := { tag := 9, body := .join }
  let a : Answer := { kind := 1, tag := 1, code := .ok, payload := 0 }
  ((plant.updPort 3 fun x => { x with handler := .busy, requests := [r, r, r, r], link := half }).updPort 8 fun x =>
    { x with handler := .busy, requests := [r], link := half }).updPort 4 fun x => { x with replies := [a, a, a, a] }

/-- Port 4 with four answers, in a frame, and behind them a JOIN and a LEAVE (an urgent kind by default). -/
def waiting : State :=
  let a : Answer := { kind := 1, tag := 1, code := .ok, payload := 0 }
  plant.updPort 4 fun x =>
    { x with
      replies := [a, a, a, a], requests := [{ tag := 8, body := .join }, { tag := 9, body := .leave }]
      link := .inFrame (AnswerHalf.make 0 (some a)) }

/-- The same with room for one answer. -/
def able : State := waiting.updPort 4 fun x => { x with replies := x.replies.tail }

/-- A request half with its CRC. -/
def withCrc (message : BitVec 96) : BitVec 112 := message ++ crc16 message

def idleHalf : BitVec 112 := withCrc 0

def resetHalf : BitVec 112 := withCrc (11#8 ++ 0#88)

/-! ### The premises of the statements, made decidable -/

theorem quiet_of {s : State} (h : ∀ p : Port, (look s.router.sets p).fresh = [] ∧ s.canTake p = false) : s.Quiet :=
  ⟨fun p => (h p).1, fun p => (h p).2⟩

theorem listening_of {s : State} {p : Port}
    (h : (∀ p : Port, (look s.router.sets p).fresh = [] ∧ s.canTake p = false) ∧ (s.port p).requests = [] ∧
      (s.port p).handler = .idle ∧ (s.port p).replies.length < replyRoom) : s.Listening p :=
  ⟨quiet_of h.1, h.2.1, h.2.2.1, h.2.2.2⟩

theorem serves_of {s : State} {p : Port} (h : s.Listening p) (u : s.locked p = false) : s.Serves p := ⟨h, u⟩

theorem reset_listening (p : Port) : State.reset.Listening p := listening_of (by revert p; decide +kernel)

theorem plant_listening (p : Port) : plant.Listening p := listening_of (by revert p; decide +kernel)

theorem plant_serves (p : Port) (h : p ≠ 7) : plant.Serves p :=
  serves_of (plant_listening p) (by revert p; decide +kernel)

theorem halted_listening (p : Port) : halted.Listening p := listening_of (by revert p; decide +kernel)

theorem framed_quiet : framed.Quiet := quiet_of (by decide +kernel)

theorem crowded_quiet : crowded.Quiet := quiet_of (by decide +kernel)

theorem inRun_quiet : inRun.Quiet := quiet_of (by decide +kernel)

theorem waiting_quiet : waiting.Quiet := quiet_of (by decide +kernel)

/-- R170: the urgent LEAVE overtakes the JOIN. -/
theorem waiting_chooses :
    waiting.Chooses 4 [{ tag := 8, body := .join }] { tag := 9, body := .leave } [] :=
  ⟨by decide +kernel, by decide +kernel, by decide +kernel⟩

/-! ### The step, power-on and frames -/

theorem witness_StepRunsFront :
    ({ plant with pending := [.join 6 1, .timerExpiry] } : State).pending = .join 6 1 :: [.timerExpiry] ∧
      plant.pending = [] := by decide +kernel

theorem witness_FrameStartFixesAnswerHalf :
    ((plant.port 7).link = .idle ∧ (7 : Port) = stationPort 7 ∧ (plant.port 7).replies = []) ∧
      ((plant.port 10).link = .idle ∧ 10 ≤ (10 : Port).val) ∧
      ((crowded.port 4).link = .idle ∧ (crowded.port 4).replies.head?.isSome) ∧
      (framed.port 0).link ≠ .idle ∧ (framed.port 2).link ≠ .idle := by decide +kernel

/-- A port with no answer and an open interlock: status byte 0x40 (R165), LOCK alone, with plant state FREE. -/
theorem test_frameStart_status :
    ((after plant (.frameStart 7)).port 7).link = .inFrame (AnswerHalf.make 0x40 none) := by decide +kernel

/-- The filters that let the idle frame of port 0 pass as named. -/
def filtered (f0 f1 : Filter) (frozen : Bool) : State :=
  { framed with stats := { framed.stats with filters := #v[f0, f1], frozen := frozen } }

def noFrame : Filter := { Filter.reset with kindMatch := 5, kindMask := 255 }

theorem filtered_quiet (f0 f1 : Filter) (frozen : Bool) : (filtered f0 f1 frozen).Quiet :=
  ⟨framed_quiet.settled, framed_quiet.taken⟩

theorem witness_IdleFrameDeliversAnswer :
    ((framed.port 0).link = .inFrame (AnswerHalf.make (plant.statusOf 0) (framed.port 0).replies.head?) ∧
      (framed.port 0).requests = [] ∧ crc16 (idleHalf.extractLsb' 16 96) = idleHalf.extractLsb' 0 16 ∧
      idleHalf.extractLsb' 104 8 = 0) ∧
    (let passes (s : State) (n : Fin 2) : Bool := (look s.stats.filters n).passes 0 0 (idleHalf.extractLsb' 96 8)
     (filtered Filter.reset Filter.reset true).stats.frozen = true ∧
     (passes (filtered noFrame noFrame false) 0 = false ∧ passes (filtered noFrame noFrame false) 1 = false) ∧
     (passes (filtered Filter.reset noFrame false) 0 = true ∧ passes (filtered Filter.reset noFrame false) 1 = false) ∧
     (passes (filtered noFrame Filter.reset false) 0 = false ∧ passes (filtered noFrame Filter.reset false) 1 = true) ∧
     (passes framed 0 = true ∧ passes framed 1 = true ∧
      (after framed (.frameComplete 0 idleHalf)).stats.frozen = false)) :=
  by decide +kernel

/-- A counter of a source on every port, one event short of an overflow that freezes the unit. -/
def nearlyFull (x : StatSource) : Counter :=
  { Counter.reset with
    control := { Control.reset with source := x, mask := 0xFFF, freezeOnOverflow := true, enable := true }
    value := 0xFFFFFFFFFF }

/-- Counters of two sources that are both about to freeze the unit. -/
def onTheEdge (s : State) (x y : StatSource) : State :=
  s.setStats { s.stats with counters := put (put s.stats.counters 0 (nearlyFull x)) 1 (nearlyFull y) }

/-- R142: the event of either filter can come first and freeze the unit, so that the other's is not counted. -/
theorem test_filters_in_either_order :
    (let counted (n : Fin 8) : Bool :=
       (look ((onTheEdge framed .filter0 .filter1).filterFrame 0 0 0).stats.counters n).overflow
     (counted 0 = true ∧ counted 1 = false) ∨ (counted 0 = false ∧ counted 1 = true)) := by
  obtain ⟨order, n, h, e, -⟩ := together_order (onTheEdge framed .filter0 .filter1)
    (fun t k => t.filterOne 0 0 0 k) [[0], [1]]
  have free : (order.foldl (fun t k => t.filterOne 0 0 0 k)
      ({ onTheEdge framed .filter0 .filter1 with choices := n } : State)).stats =
      (order.foldl (fun t k => t.filterOne 0 0 0 k) (onTheEdge framed .filter0 .filter1)).stats :=
    List.foldl_rel (r := fun a b : State => a.stats = b.stats) rfl fun k _ _ _ q => filterOne_stats_congr q 0 0 0 k
  simp only [State.filterFrame, e, free]
  rcases interleaves_two h with rfl | rfl
  · exact Or.inl (by decide +kernel)
  · exact Or.inr (by decide +kernel)

theorem test_idleFrame_delivers : ((after framed (.frameComplete 0 idleHalf)).port 0).replies = [] := by decide +kernel

theorem witness_ErroneousFramesSetFerr :
    framed.Quiet ∧ (framed.port 0).link ≠ .idle ∧ (framed.port 0).link ≠ .awaitRelease ∧
      (framed.port 0).requests = [] ∧
      crc16 ((idleHalf + 1).extractLsb' 16 96) ≠ (idleHalf + 1).extractLsb' 0 16 ∧ (framed.port 1).link = .idle ∧
      exec (.frameStart 1) framed = .next (framed.beginFrame 1) ∧ (framed.port 2).link = .awaitRelease :=
  ⟨framed_quiet, by decide +kernel, by decide +kernel, by decide +kernel, by decide +kernel, by decide +kernel, rfl,
    by decide +kernel⟩

theorem test_crcError_keeps_nothing :
    (let x := (after framed (.frameComplete 0 (idleHalf + 1))).port 0
     x.ferr = true ∧ x.replies = [] ∧ x.requests = []) := by decide +kernel

theorem test_framingError_keeps_answer :
    (let x := (after framed (.framingError 0)).port 0
     x.ferr = true ∧ x.replies = (framed.port 0).replies ∧ x.link = .idle) := by decide +kernel

def joinRequest : Request := { tag := 5, body := .join }

theorem witness_RequestFrameActsAsItsCommand :
    framed.Quiet ∧ crowded.Quiet ∧
    (requestOf (.join 0 5) = some (0, joinRequest) ∧ Request.ofHalf joinRequest.half = joinRequest ∧
      joinRequest.half.extractLsb' 104 8 ≠ 0 ∧ joinRequest.half.extractLsb' 104 8 ≠ 11 ∧
      crc16 (joinRequest.half.extractLsb' 16 96) = joinRequest.half.extractLsb' 0 16) ∧
    (framed.port 0).requests = [] ∧
    ((crowded.port 8).handler = .busy ∧ (crowded.port 8).requests.length < (crowded.port 8).depth.frames ∧
      (crowded.port 8).link = .inFrame (AnswerHalf.make 0 none)) ∧
    ((crowded.port 3).handler = .busy ∧ (crowded.port 3).depth.frames ≤ (crowded.port 3).requests.length ∧
      (crowded.port 3).link = .inFrame (AnswerHalf.make 0 none)) ∧
    (waiting.Quiet ∧ (waiting.port 4).handler = .idle ∧ (waiting.port 4).replies.length = 4 ∧
      (∃ h : AnswerHalf, (waiting.port 4).link = .inFrame h ∧ h.answer.isSome = true) ∧
      waiting.Chooses 4 [{ tag := 8, body := .join }] { tag := 9, body := .leave } []) :=
  ⟨framed_quiet, crowded_quiet, by decide +kernel, by decide +kernel, by decide +kernel, by decide +kernel,
    waiting_quiet, by decide +kernel, by decide +kernel, ⟨_, rfl, rfl⟩, waiting_chooses⟩

/-- R169, R170: the delivered answer makes room for one request, and the urgent LEAVE is taken before the JOIN. -/
theorem test_urgent_overtakes :
    (let x := (after waiting (.frameComplete 4 idleHalf)).port 4
     x.requests = [{ tag := 8, body := .join }] ∧ x.replies.length = 4 ∧
       ((after waiting (.frameComplete 4 idleHalf)).station 4).state = .absent) := by decide +kernel

theorem witness_PortResetClearsItsPort :
    framed.Quiet ∧ crowded.Quiet ∧ crc16 (resetHalf.extractLsb' 16 96) = resetHalf.extractLsb' 0 16 ∧
      resetHalf.extractLsb' 104 8 = 11 ∧ (7 : Port) = stationPort 7 ∧
      ((framed.port 7).link = .inFrame (AnswerHalf.make (plant.statusOf 7) none) ∧ (framed.port 7).requests = []) ∧
      ((framed.port 10).link = .inFrame (AnswerHalf.make (plant.statusOf 10) none) ∧
        (framed.port 10).requests = [] ∧ (10 : Port) = storagePort) ∧
      ((framed.port 11).link = .inFrame (AnswerHalf.make (plant.statusOf 11) none) ∧
        (framed.port 11).requests = [] ∧ (11 : Port) ≠ storagePort ∧ ∀ i, (11 : Port) ≠ stationPort i) ∧
      ((crowded.port 3).link = .inFrame (AnswerHalf.make 0 none) ∧ (crowded.port 3).handler = .busy) ∧
      (let passes (s : State) (n : Fin 2) : Bool := (look s.stats.filters n).passes 7 11 (resetHalf.extractLsb' 96 8)
       (passes framed 0 = true ∧ passes framed 1 = true ∧
         (after framed (.frameComplete 7 resetHalf)).stats.frozen = false) ∧
       (passes (filtered noFrame noFrame false) 0 = false ∧ passes (filtered noFrame noFrame false) 1 = false) ∧
       (filtered Filter.reset Filter.reset true).stats.frozen = true) :=
  ⟨framed_quiet, crowded_quiet, by decide +kernel⟩

/-- R68, R86: a reset during an interlock leaves the larger of applied and granted, and the entry JOINING. -/
theorem test_portReset_station :
    (let e := (after framed (.frameComplete 7 resetHalf)).station 7
     e.state = .joining ∧ e.applied = 9000 ∧ e.interlock = none) := by decide +kernel

/-- R86: the reset's INTERLOCK-END counts the grant above the applied ceiling, 9,000 − 6,000. -/
theorem test_portReset_counts :
    (look (after (framed.setStats (framed.stats.updCounter 0 fun c =>
        { c with control := { Control.reset with source := .interlockEnd, mask := 0xFFF, mode := .magnitude, enable := true } }))
      (.frameComplete 7 resetHalf)).stats.counters 0).value = 3000 := by decide +kernel

/-! ### The request queue and the taking of a request -/

theorem witness_RequestWaitsOrIsDropped :
    crowded.Quiet ∧ requestOf (.join 8 5) = some (8, joinRequest) ∧
      ((crowded.port 8).handler = .busy ∧ (crowded.port 8).requests.length < (crowded.port 8).depth.frames) ∧
      ((crowded.port 3).handler = .busy ∧ (crowded.port 3).depth.frames ≤ (crowded.port 3).requests.length) ∧
      4 ≤ (crowded.port 4).replies.length ∧ (∀ p, ¬ plant.AbleToTake p) ∧ able.AbleToTake 4 :=
  ⟨crowded_quiet, by decide +kernel, by decide +kernel, by decide +kernel, by decide +kernel,
    fun p h => h.waiting ((by decide +kernel : ∀ q : Port, (plant.port q).requests = []) p),
    ⟨by decide +kernel, by decide +kernel, by decide +kernel⟩⟩

theorem witness_UndefinedKindOrWrongRoleRefused :
    (plant.Serves 0 ∧ (Instr.undefinedKind 0 1 12).wellFormed = true ∧ (Instr.undefinedKind 0 1 15).wellFormed = true ∧
      (Instr.undefinedKind 0 1 31).wellFormed = true ∧ (Instr.undefinedKind 0 1 255).wellFormed = true) ∧
    (plant.Serves 11 ∧ (Instr.join 11 5).wellFormed = true ∧ requestOf (.join 11 5) = some (11, joinRequest) ∧
      joinRequest.body.roleListed 11 = false) ∧
    (plant.Serves 10 ∧ Body.roleListed (.entryRead 0 0) 10 = false ∧ Body.roleListed (.telemetry 0 0) 10 = false) ∧
    Body.roleListed .dispTake 9 = false ∧ Body.roleListed .engHalt 10 = false :=
  ⟨⟨plant_serves 0 (by decide), by decide⟩, ⟨plant_serves 11 (by decide), by decide⟩,
    ⟨plant_serves 10 (by decide), by decide⟩, by decide⟩

theorem test_undefinedKind : answer plant (.undefinedKind 0 1 12) 0 = some (.refusedKind, 0) := by decide +kernel

theorem witness_OtherRequestEndsInterlock :
    plant.Listening (stationPort 7) ∧
      requestOf (.telemetry 7 5 6000 9000) = some (stationPort 7, { tag := 5, body := .telemetry 6000 9000 }) ∧
      (plant.station 7).interlock.isSome ∧ Body.telemetry 6000 9000 ≠ .leave ∧
      ∀ echo, Body.telemetry 6000 9000 ≠ .ceilApply echo :=
  ⟨plant_listening _, by decide +kernel, by decide +kernel, by decide, fun _ => nofun⟩

/-- R74: a report sent instead of an APPLY ends the interlock by the worst case; in CYCLE the report itself brings the
entry back to ONLINE. -/
theorem test_telemetry_ends_interlock :
    (let e := (after plant (.telemetry 7 5 6000 9000)).station 7
     e.state = .online ∧ e.applied = 9000 ∧ e.interlock = none ∧ e.meas = 6000) := by decide +kernel

/-! ### Joining, leaving and telemetry -/

theorem witness_JoinEntersJoining :
    (plant.Serves (stationPort 6) ∧ (plant.station 6).state = .absent ∧ (plant.station 6).rating = 0) ∧
      (plant.Serves (stationPort 5) ∧ (plant.station 5).state = .absent ∧ 0 < (plant.station 5).rating) ∧
      (plant.Serves (stationPort 0) ∧ (plant.station 0).state ≠ .absent) ∧
      (State.reset.Listening storagePort ∧ State.reset.storage.state = .absent) ∧
      (plant.Listening storagePort ∧ plant.storage.state ≠ .absent) :=
  ⟨⟨plant_serves _ (by decide), by decide +kernel⟩, ⟨plant_serves _ (by decide), by decide +kernel⟩,
    ⟨plant_serves _ (by decide), by decide +kernel⟩, ⟨reset_listening _, by decide⟩,
    ⟨plant_listening _, by decide +kernel⟩⟩

/-- R53: JOINING is answered with the rating 10,000. -/
theorem test_join : answer plant (.join 5 1) 5 = some (.ok, 0x0127100000000000) := by decide +kernel

theorem witness_LeaveMakesAbsent :
    (plant.Listening (stationPort 5) ∧ (plant.station 5).state = .absent) ∧
      (plant.Listening (stationPort 7) ∧ (plant.station 7).state = .online ∧ (plant.station 7).interlock.isSome) ∧
      (plant.Listening (stationPort 0) ∧ (plant.station 0).state ≠ .absent ∧ (plant.station 0).interlock = none) ∧
      (plant.Listening (stationPort 3) ∧ (plant.station 3).state ≠ .absent ∧ (plant.station 3).state ≠ .online) ∧
      (State.reset.Listening storagePort ∧ State.reset.storage.state = .absent) ∧
      (plant.Listening storagePort ∧ plant.storage.state ≠ .absent) :=
  ⟨⟨plant_listening _, by decide +kernel⟩, ⟨plant_listening _, by decide +kernel⟩,
    ⟨plant_listening _, by decide +kernel⟩, ⟨plant_listening _, by decide +kernel⟩, ⟨reset_listening _, by decide⟩,
    ⟨plant_listening _, by decide +kernel⟩⟩

theorem test_leave_zeroes :
    (let e := (after plant (.leave 7 1)).station 7
     e.state = .absent ∧ e.applied = 0 ∧ e.interlock = none ∧ e.rating = 10000) := by decide +kernel

theorem witness_TelemetryRefusedOrEarly :
    (plant.Serves (stationPort 5) ∧ (plant.station 5).state = .absent) ∧
      (plant.Serves (stationPort 1) ∧ (plant.station 1).state ≠ .absent ∧ 0 < plant.params.telWmin ∧
        (plant.station 1).age < plant.params.telWmin) :=
  ⟨⟨plant_serves _ (by decide), by decide +kernel⟩, ⟨plant_serves _ (by decide), by decide +kernel⟩⟩

/-- The laws of an entry, found by evaluation. -/
theorem station_wf {e : Station}
    (a : e.rating ≤ 65535 ∧ e.applied ≤ e.rating ∧ e.avail ≤ e.rating ∧ (e.park.isSome = true ↔ e.state = .parked))
    (b : ∀ c ∈ e.park, c ≤ e.rating)
    (c : ∀ r ∈ e.interlock, e.state = .online ∧ r.granted ≤ e.rating ∧ r.reserved = r.granted - e.applied)
    (d : (e.state.followsHolding = true → (e.state = .faulted ↔ e.holding ≠ 0)) ∧
      (e.state ≠ .stale → e.staleDuration = 0) ∧
      (e.state = .absent → e.meas = 0 ∧ e.avail = 0 ∧ e.applied = 0 ∧ e.age = 0) ∧
      (e.age ≤ 255 ∧ e.overshootRun ≤ 15 ∧ e.staleDuration ≤ 255)) : e.Wf :=
  ⟨a.1, a.2.1, a.2.2.1, a.2.2.2, b, c, d.1, d.2.1, d.2.2.1, d.2.2.2⟩

theorem plant_stationsWf : plant.StationsWf := fun i =>
  station_wf (by revert i; decide +kernel) (by revert i; decide +kernel) (by revert i; decide +kernel)
    (by revert i; decide +kernel)

theorem witness_TelemetryAccepted :
    plant.Serves (stationPort 0) ∧ (plant.station 0).Wf ∧ (plant.station 0).state ≠ .absent ∧
      (plant.station 0).age = plant.params.telWmin ∧ State.reset.params.telWmin = 0 :=
  ⟨plant_serves _ (by decide), plant_stationsWf 0, by decide +kernel⟩

/-- R56: avail above the rating is stored as the rating and answered OK-CLAMPED: ONLINE, age 0, avail 20,000. -/
theorem test_telemetry_clamped :
    answer plant (.telemetry 0 1 9000 25000) 0 = some (.okClamped, 0x02004E2000000000) := by decide +kernel

/-! ### Ceiling takes, confirmations and the battery -/

theorem witness_TakesAreHeldDuringARun :
    (after plant .timerExpiry).runInFlight = true ∧ (after plant .timerExpiry).Serves (stationPort 0) ∧
      (after plant .timerExpiry).Listening storagePort :=
  ⟨by decide +kernel, serves_of (listening_of (by decide +kernel)) (by decide +kernel),
    listening_of (by decide +kernel)⟩

theorem test_dispTake_held : inRun.storage.held = some 4 ∧ inRun.heldTakes = [{ station := 0, tag := 3 }] ∧
    (inRun.port 10).handler = .busy ∧ (inRun.port 10).replies = [] := by decide +kernel

theorem witness_CeilTakeFixed :
    (plant.Serves (stationPort 5) ∧ plant.runInFlight = false ∧ (plant.station 5).state = .absent) ∧
    (halted.Serves (stationPort 0) ∧ halted.runInFlight = false ∧ halted.halted = true ∧
      (halted.station 0).state ≠ .absent) ∧
    (plant.Serves (stationPort 2) ∧ (plant.station 2).state = .faulted ∧ plant.halted = false ∧
      8000 = min (plant.station 2).applied ((plant.station 2).rating * plant.params.faultCap / 1000)) ∧
    (plant.Serves (stationPort 1) ∧ (plant.station 1).state = .parked ∧ (plant.station 1).park = some 5000) ∧
    (plant.Serves (stationPort 8) ∧ (plant.station 8).state = .online ∧ look plant.published.mask 8 = false) :=
  ⟨⟨plant_serves _ (by decide), by decide +kernel⟩,
    ⟨serves_of (halted_listening _) (by decide +kernel), by decide +kernel⟩,
    ⟨plant_serves _ (by decide), by decide +kernel⟩, ⟨plant_serves _ (by decide), by decide +kernel⟩,
    ⟨plant_serves _ (by decide), by decide +kernel⟩⟩

/-- R78: the fault cap of a FAULTED station, FAULT_CAP 500: 12,500 × 500 / 1000 = 6,250, offer 0, tag 6. -/
theorem test_ceilTake_faultCap :
    answer { plant with params := { plant.params with faultCap := 500 } } (.ceilTake 2 1) 2 =
      some (.fixed, 0x04186A0000000600) := by decide +kernel

theorem witness_CeilTakeGrants :
    (plant.Serves (stationPort 0) ∧ plant.engine.run = .running ∧ (plant.station 0).state = .online ∧
      look plant.published.mask 0 = true) ∧
    (plant.Serves (stationPort 9) ∧ (plant.station 9).state = .online ∧ look plant.published.mask 9 = true) :=
  ⟨⟨plant_serves _ (by decide), by decide +kernel⟩, ⟨plant_serves _ (by decide), by decide +kernel⟩⟩

/-- The pool sequence of section 4.10: A 43,500, applied ceilings 16,500, 12,200 and 12,800. -/
def pooled (s0 : Station) : State :=
  let offers : Vector Nat 10 := #v[17400, 13050, 13050, 0, 0, 0, 0, 0, 0, 0]
  let s := { plant with
    published := { record with allowance := 43500, mask := tabulate fun i => decide (i.val ≤ 2), offers := offers } }
  ((s.updStation 0 fun _ => s0).updStation 1 fun _ =>
    { online 15000 12200 12000 12000 1 with
      interlock := some { granted := 13050, reserved := 850, takeTag := 6, publications := 0 } }).updStation 2 fun _ =>
    online 15000 12800 12000 12000 1

/-- "S0 CEIL-TAKE: wants 900": OK, ceiling 17,400, the pool 250. -/
theorem test_ceilTake_pool :
    (let s := pooled (online 20000 16500 16000 16000 1)
     answer s (.ceilTake 0 1) 0 = some (.ok, 0x0243F843F8000600) ∧ s.pool = 1150 ∧
       (after s (.ceilTake 0 1)).pool = 250) := by decide +kernel

/-- "S2 CEIL-TAKE: wants 250" on a pool of −50: PARTIAL(POOL), ceiling 12,800. -/
theorem test_ceilTake_partial :
    (let s := pooled (online 20000 17700 16000 16000 1)
     answer s (.ceilTake 2 1) 2 = some (.partialPool, 0x02320032FA000600) ∧ s.pool = -50) := by decide +kernel

theorem witness_CeilApplyPairedAndUnpaired :
    (plant.Listening (stationPort 7) ∧
      ∃ r, (plant.station 7).interlock = some r ∧ (9000#16).toNat ≤ r.granted ∧ r.granted < (9001#16).toNat) ∧
    (plant.Serves (stationPort 5) ∧ (plant.station 5).state = .absent) ∧
    (plant.Serves (stationPort 0) ∧ (plant.station 0).state ≠ .absent) :=
  ⟨⟨plant_listening _, ⟨_, rfl, by decide, by decide⟩⟩, ⟨plant_serves _ (by decide), by decide +kernel⟩,
    ⟨plant_serves _ (by decide), by decide +kernel⟩⟩

/-- "S0 CEIL-APPLY 17,700": OK-CLAMPED with 17,700 and 17,400, the entry FAULTED, the pool −50 (section 4.10). -/
theorem test_ceilApply_echoHigh :
    (let s := after (pooled (online 20000 16500 16000 16000 1)) (.ceilTake 0 1)
     answer s (.ceilApply 0 2 17700) 0 = some (.okClamped, 0x452443F800000000) ∧
       (after s (.ceilApply 0 2 17700)).pool = -50 ∧
       ((after s (.ceilApply 0 2 17700)).station 0).state = .faulted) := by decide +kernel

theorem test_ceilApply_unpaired : answer plant (.ceilApply 0 2 500) 0 = some (.refusedUnpaired, 0x2710000000000000) := by
  decide +kernel

theorem witness_StorTelStoresReport :
    (State.reset.Listening storagePort ∧ State.reset.storage.state = .absent) ∧
    (halted.Listening storagePort ∧ plant.storage.state ≠ .absent) ∧
    (plant.Listening storagePort ∧ plant.storage.state ≠ .absent ∧
      ¬ (0 < plant.params.telWmin ∧ plant.storage.age < plant.params.telWmin)) ∧
    (let early := after plant (.storTel 10 1 0 500 0 0)
     early.Listening storagePort ∧ early.storage.state ≠ .absent ∧ 0 < early.params.telWmin ∧
       early.storage.age < early.params.telWmin) :=
  ⟨⟨reset_listening _, by decide⟩, ⟨halted_listening _, by decide +kernel⟩, ⟨plant_listening _, by decide +kernel⟩,
    ⟨listening_of (by decide +kernel), by decide +kernel⟩⟩

/-- R96: meas −70,000 is stored as −65,535 and SOC 1,200 as 1,000. -/
theorem test_storTel_clamped :
    answer plant (.storTel 10 1 (-70000) 1200 8000 8000) 10 = some (.okClamped, 0x0200FFFF000103E8) := by decide +kernel

theorem witness_DispTakeAnswered :
    (State.reset.Listening storagePort ∧ State.reset.runInFlight = false ∧
      State.reset.published = Published.cleared ∧ State.reset.storage.state = .absent) ∧
    (plant.Listening storagePort ∧ plant.runInFlight = false ∧ plant.halted = false ∧ plant.storage.state ≠ .absent ∧
      plant.published.storageOnline = true) ∧
    (halted.Listening storagePort ∧ halted.runInFlight = false ∧ halted.published = Published.cleared ∧
      halted.storage.state ≠ .absent ∧ halted.published.storageOnline = false) :=
  ⟨⟨reset_listening _, by decide⟩, ⟨plant_listening _, by decide +kernel⟩, ⟨halted_listening _, by decide +kernel⟩⟩

/-- R98, R166: B = −500 has bit 7 of byte 6 set; the live state ONLINE is 2 in bits 5 to 4. -/
theorem test_dispTake : answer plant (.dispTake 10 1) 10 = some (.ok, 0x0006A001F4000000) := by decide +kernel

/-! ### Reads -/

theorem witness_EntryReadReturnsPages :
    plant.Serves (stationPort 0) ∧ plant.Listening supervisorPort ∧ (0#8).toNat = (0 : StationId).val ∧
      (9#8).toNat = (9 : StationId).val ∧ ((10#8).toNat = 10 ∧ (0#8).toNat = 0) ∧
      ((10#8).toNat = 10 ∧ (1#8).toNat = 1) ∧ 10 < (11#8).toNat ∧ ((10#8).toNat = 10 ∧ 1 < (2#8).toNat) :=
  ⟨plant_serves _ (by decide), plant_listening _, by decide⟩

theorem test_entryRead :
    answer plant (.entryRead 11 1 7 2) 11 = some (.ok, 0x23280BB800060100) ∧
      answer plant (.entryRead 11 1 10 0) 11 = some (.ok, 0x820101F41F401770) := by decide +kernel

theorem witness_AttnReadAndAck :
    plant.Serves 0 ∧ plant.Serves 10 ∧ plant.Serves 11 ∧ (12 ≤ (12#8).toNat ∧ (12#8) ≠ 255) ∧
      (10 ≤ (10#8).toNat ∧ (10#8) ≠ 255) ∧ (11#8).toNat ≤ 11 ∧ (9#8).toNat ≤ 9 :=
  ⟨plant_serves _ (by decide), plant_serves _ (by decide), plant_serves _ (by decide), by decide⟩

/-- R145, R155, R161: a FREEZE of the statistics fires STATS-FREEZE to port 11; it is read and acknowledged. -/
theorem test_attn :
    answer (after plant (.freeze 11 1)) (.attnRead 11 2) 11 = some (.ok, 0x018A000100000000) ∧
      answer (after plant (.freeze 11 1)) (.attnAck 11 2 255 255) 11 = some (.ok, 0x0100000000000000) := by
  decide +kernel

theorem witness_PlantReadAndHistRead :
    plant.Listening supervisorPort ∧
      (8 ≤ (8#8).toNat ∧ (0 : StationId).val = 2 * ((8#8).toNat - 8) ∧ (1 : StationId).val = 2 * ((8#8).toNat - 8) + 1) ∧
      (8 ≤ (12#8).toNat ∧ (8 : StationId).val = 2 * ((12#8).toNat - 8) ∧
        (9 : StationId).val = 2 * ((12#8).toNat - 8) + 1) ∧
      12 < (13#8).toNat ∧ ((2#16).toNat ≤ 599 ∧ (plant.engine.history[(2#16).toNat]?).isSome) ∧
      plant.engine.history.length ≤ (3#16).toNat ∧ 599 < (600#16).toNat :=
  ⟨plant_listening _, by decide +kernel⟩

theorem test_plantRead :
    answer plant (.plantRead 11 1 2) 11 = some (.ok, 0x000600908800A7F8) ∧
      answer plant (.plantRead 11 1 5) 11 = some (.ok, 0x0006000000FFFE0C) := by decide +kernel

theorem test_histRead : answer plant (.histRead 11 1 2) 11 = some (.ok, 0x0000000400A02800) := by decide +kernel

theorem witness_StatReadReturnsPages :
    plant.Listening supervisorPort ∧ ((0#8).toNat = (0 : Fin 8).val ∧ (7#8).toNat = (7 : Fin 8).val) ∧
      ((8#8).toNat = (0 : Fin 8).val + 8 ∧ (15#8).toNat = (7 : Fin 8).val + 8) ∧
      ((16#8).toNat = (0 : Fin 7).val + 16 ∧ (22#8).toNat = (6 : Fin 7).val + 16) ∧ (23#8).toNat = 23 ∧
      ((24#8).toNat = (0 : Fin 2).val + 24 ∧ (25#8).toNat = (1 : Fin 2).val + 24) ∧ 25 < (26#8).toNat :=
  ⟨plant_listening _, by decide⟩

theorem test_statRead_unit :
    answer (after plant (.freeze 11 1)) (.statRead 11 2 23) 11 = some (.ok, 0x0000000003000000) := by decide +kernel

/-- What a run of the plant leaves captured: its list has nine stations. -/
def captured : State := after (after plant .timerExpiry) .publication

theorem captured_listening : captured.Listening supervisorPort := listening_of (by decide +kernel)

theorem witness_CaptureReadAndRelease :
    (plant.Listening supervisorPort ∧ plant.ramp.capture = .empty ∧ 18 < (19#8).toNat ∧ 1 ≤ (1#8).toNat ∧
      (18#8).toNat ≤ 18) ∧
    captured.Listening supervisorPort ∧
    (match captured.ramp.capture with
    | .locked d => (d.stations[(9#8).toNat - 9]?).isSome && decide (d.stations.length ≤ (18#8).toNat - 9)
    | .empty | .loaded _ => false) = true :=
  ⟨⟨plant_listening _, by decide +kernel⟩, captured_listening, by decide +kernel⟩

/-- The run finds its sample below L, a hard violation: HARD-DOWN and SOFT-DOWN are latched, the record is LOCKED. -/
theorem test_captRead :
    answer captured (.captRead 11 1 0) 11 = some (.ok, 0x0A02000000000000) ∧
      answer captured (.captRead 11 1 2) 11 = some (.ok, 0x000090880000A7F8) := by decide +kernel

theorem test_captRelease : answer captured (.captRelease 11 1) 11 = some (.ok, 0x0100000000000000) := by decide +kernel

/-! ### Parameters -/

theorem witness_ParamSetStores :
    (halted.Listening supervisorPort ∧ halted.halted = true) ∧ (plant.Listening supervisorPort ∧ plant.halted = false) ∧
      31 < (32#8).toNat ∧ (1 ≤ (1#8).toNat ∧ (1#8).toNat ≤ 28 ∧ (1#8) ≠ 17 ∧ (1#8) ≠ 18 ∧ (1#8) ≠ 26 ∧ (1#8) ≠ 0) ∧
      ((28#8).toNat ≤ 28 ∧ (28#8) ≠ 17 ∧ (28#8) ≠ 18 ∧ (28#8) ≠ 26) :=
  ⟨⟨halted_listening _, by decide +kernel⟩, ⟨plant_listening _, by decide +kernel⟩, by decide⟩

/-- R176: 225 stores 250; WIN_SHORT 40 written while WIN_LONG is 3 stores 3. -/
theorem test_paramSet :
    answer halted (.paramSet 11 1 1 0 225) 11 = some (.okClamped, 0x0100000000FA0000) ∧
      answer halted (.paramSet 11 1 2 0 40) 11 = some (.okClamped, 0x0200000000030000) := by decide +kernel

theorem test_paramGet : answer plant (.paramGet 11 1 30 4) 11 = some (.ok, 0x1E04000000130000) := by decide +kernel

theorem witness_MonModeChangesTheModeOnly : plant.Listening supervisorPort ∧ 3 < (4#8).toNat :=
  ⟨plant_listening _, by decide⟩

theorem test_monMode :
    (after plant (.monMode 11 1 3 9)).params.monInterlock = .cycle ∧
      (after plant (.monMode 11 1 0 2)).params.monWindow = .latched := by decide +kernel

theorem witness_StationRatingWrites :
    plant.Listening supervisorPort ∧ ((5#8).toNat = (5 : StationId).val ∧ (plant.station 5).state = .absent) ∧
      ((1#8).toNat = (1 : StationId).val ∧ (plant.station 1).state = .parked) ∧
      ((9#8).toNat = (9 : StationId).val ∧ (plant.station 9).state ≠ .absent ∧ (plant.station 9).state ≠ .parked) ∧
      ((0#8).toNat = (0 : StationId).val) ∧ 9 < (10#8).toNat :=
  ⟨plant_listening _, by decide +kernel⟩

/-- R65: in PARKED the ceilings and the avail come down with the rating. -/
theorem test_stationRating :
    (let e := (after plant (.stationRating 11 1 1 3000)).station 1
     e.rating = 3000 ∧ e.applied = 3000 ∧ e.park = some 3000 ∧ e.avail = 3000) := by decide +kernel

theorem witness_GroupAndRaiseStepReevaluate :
    plant.Listening supervisorPort ∧ ((0#8).toNat = (0 : StationId).val ∧ (9#8).toNat = (9 : StationId).val) ∧
      9 < (10#8).toNat ∧ (1#8) ≠ 0 :=
  ⟨plant_listening _, by decide⟩

theorem test_stationGroup : answer plant (.stationGroup 11 1 0 7) 11 = some (.okClamped, 0x1200000000030000) := by
  decide +kernel

/-- R88: with RAISE_STEP 2,000 station 0, applied 10,000 and offered 12,000, is ready; with 2,001 it is not. -/
theorem test_raiseStep :
    ((after plant (.raiseStep 11 1 0 2000)).station 0).ready = true ∧
      ((after plant (.raiseStep 11 1 0 2001)).station 0).ready = false := by decide +kernel

theorem witness_QueueDepthDiscardsNewest :
    crowded.Listening supervisorPort ∧ ((0#8).toNat = (0 : Port).val ∧ (11#8).toNat = (11 : Port).val) ∧
      ((3#8).toNat = (3 : Port).val ∧ (crowded.port 3).requests.length = 4) ∧ 11 < (12#8).toNat :=
  ⟨listening_of (by decide +kernel), by decide +kernel⟩

theorem test_queueDepth :
    (let x := (after crowded (.queueDepth 11 1 3 1)).port 3
     x.requests.length = 1 ∧ x.drop = true ∧ x.depth = .one) := by decide +kernel

theorem witness_UrgentAndRouteWrites :
    plant.Listening supervisorPort ∧ ((0#8).toNat = (0 : Fin 8).val ∧ (7#8).toNat = (7 : Fin 8).val) ∧
      7 < (8#8).toNat ∧ ((3#32) = (3#8).zeroExtend 32 ∧ kindDefined 3 = true ∧
        ∀ m, m ≠ 5 → look plant.params.urgent m ≠ some 3) ∧
      ((31#32) = (31#8).zeroExtend 32 ∧ (31#8) ≠ 255 ∧ kindDefined 31 = false) ∧
      ((2#32) = (2#8).zeroExtend 32 ∧ ∃ m, m ≠ 5 ∧ look plant.params.urgent m = some 2) ∧ 255 < (256#32).toNat ∧
      ((0#8).toNat = (0 : Fin 12).val ∧ (11#8).toNat = (11 : Fin 12).val) ∧ 11 < (12#8).toNat :=
  ⟨plant_listening _, by decide +kernel⟩

theorem test_urgent :
    answer plant (.urgent 11 1 5 2) 11 = some (.okClamped, 0x1E05000000FF0000) ∧
      answer plant (.urgent 11 1 5 3) 11 = some (.ok, 0x1E05000000030000) := by decide +kernel

/-- R155: own port is held clear for kind 3, and bits above 13 are stored as 0. -/
theorem test_route :
    answer plant (.route 11 1 3 0x3800) 11 = some (.okClamped, 0x1F03000028000000) ∧
      answer plant (.route 11 1 1 0xF801) 11 = some (.okClamped, 0x1F01000038010000) := by decide +kernel

theorem witness_ParamGetReturnsStored :
    plant.Listening supervisorPort ∧ ((0#8).toNat = (0 : StationId).val ∧ (9#8).toNat = (9 : StationId).val) ∧
      (11#8).toNat = (11 : Port).val ∧ (7#8).toNat = (7 : Fin 8).val ∧ (11#8).toNat = (11 : Fin 12).val ∧
      31 < (32#8).toNat ∧ ((1#8).toNat ≤ 28 ∧ (28#8).toNat ≤ 28 ∧ (1#8) ≠ 0) ∧ 3 < (4#8).toNat ∧ 7 < (8#8).toNat ∧
      9 < (10#8).toNat ∧ 11 < (12#8).toNat :=
  ⟨plant_listening _, by decide⟩

/-! ### The engine, parking, clearing and freezing -/

theorem witness_EngStartStartsEmpty :
    (plant.Listening supervisorPort ∧ plant.halted = false) ∧ (halted.Listening supervisorPort ∧ halted.halted = true) :=
  ⟨⟨plant_listening _, by decide +kernel⟩, ⟨halted_listening _, by decide +kernel⟩⟩

theorem test_engStart :
    (let t := after halted (.engStart 11 1)
     t.engine.run = .running ∧ t.engine.counter = 0 ∧ t.engine.history = [] ∧ t.engine.timer = .running 200) := by
  decide +kernel

theorem witness_EngHaltStopsAndAnswers :
    (halted.Listening supervisorPort ∧ halted.halted = true) ∧
      (inRun.Listening supervisorPort ∧ inRun.halted = false ∧ (∀ q, (inRun.port q).requests = []) ∧
        (inRun.heldTakes.map HeldTake.station).Nodup ∧ inRun.heldTakes ≠ [] ∧ inRun.storage.held = some 4) ∧
      (plant.Listening supervisorPort ∧ plant.halted = false ∧ plant.storage.held = none) :=
  ⟨⟨halted_listening _, by decide +kernel⟩, ⟨listening_of (by decide +kernel), by decide +kernel⟩,
    ⟨plant_listening _, by decide +kernel⟩⟩

/-- R87: the held take of station 0 is answered FIXED with its applied ceiling 10,000, offer 0 and tag 0. -/
theorem test_engHalt :
    answer inRun (.engHalt 11 1) 0 = some (.fixed, 0x0227100000000000) ∧
      ((after inRun (.engHalt 11 1)).station 7).applied = 9000 := by decide +kernel

theorem witness_MeterFillsSlot :
    (halted.Listening supervisorPort ∧ halted.halted = true) ∧
      (plant.Listening supervisorPort ∧ plant.halted = false ∧ (7#16) = plant.engine.counter.truncate 16 ∧
        (6#16) ≠ plant.engine.counter.truncate 16) :=
  ⟨⟨halted_listening _, by decide +kernel⟩, ⟨plant_listening _, by decide +kernel⟩⟩

/-- R11: a value above 1,000,000 is stored as 1,000,000; a late tag is refused. -/
theorem test_meter :
    answer plant (.meter 11 1 2000000 7) 11 = some (.okClamped, 0x000F424000000000) ∧
      answer plant (.meter 11 1 2000000 6) 11 = some (.refusedTag, 0) := by decide +kernel

theorem witness_ParkAndUnpark :
    plant.Listening supervisorPort ∧ 9 < (10#8).toNat ∧
      ((5#8).toNat = (5 : StationId).val ∧ (plant.station 5).state = .absent) ∧
      ((7#8).toNat = (7 : StationId).val ∧ (plant.station 7).state = .online ∧ (plant.station 7).interlock.isSome) ∧
      ((9#8).toNat = (9 : StationId).val ∧ (plant.station 9).state ≠ .absent ∧ (plant.station 9).interlock = none) ∧
      ((0#8).toNat = (0 : StationId).val ∧ (plant.station 0).state ≠ .parked) ∧
      ((1#8).toNat = (1 : StationId).val ∧ (plant.station 1).state = .parked) :=
  ⟨plant_listening _, by decide +kernel⟩

theorem test_park : answer plant (.park 11 1 7 12000) 11 = some (.okClamped, 0x0527100000000000) := by decide +kernel

theorem test_unpark : answer plant (.unpark 11 1 1) 11 = some (.ok, 0x0100000000000000) := by decide +kernel

theorem witness_FaultClearStationAndPlant :
    plant.Listening supervisorPort ∧ ((10#8) ≠ 255 ∧ 9 < (10#8).toNat) ∧ (254#8) ≠ 255 ∧
      ((2#8).toNat = (2 : StationId).val ∧ (plant.station 2).state = .faulted) ∧
      ((0#8).toNat = (0 : StationId).val ∧ (9#8).toNat = (9 : StationId).val) :=
  ⟨plant_listening _, by decide +kernel⟩

theorem test_faultClear :
    (let e := (after plant (.faultClear 11 1 2)).station 2
     e.state = .joining ∧ e.statuses = 0 ∧ e.holding = 0 ∧ e.applied = 8000) := by decide +kernel

theorem test_faultClearPlant :
    (let r := (after captured (.faultClearPlant 11 1)).ramp
     r.hardDown = false ∧ r.softDown = false ∧ r.capture = captured.ramp.capture) := by decide +kernel

/-- The plant with the scopes of group 2 and of the plant frozen. -/
def frozen : State :=
  { plant with
    ramp := { plant.ramp with scopes := tabulate fun n =>
      if n = 2 ∨ n = 4 then { frozen := true, cleanRuns := 3 } else Scope.released } }

theorem witness_FreezeReleaseReleasesNamed :
    plant.Listening supervisorPort ∧ frozen.Listening supervisorPort ∧ (4 < (5#8).toNat ∧ (5#8) ≠ 255) ∧
      (254#8) ≠ 255 ∧ (4#8).toNat ≤ 4 ∧ (0#8).toNat ≤ 4 ∧
      (∃ n, (look frozen.ramp.scopes n).frozen = true) ∧ (∀ n, (look plant.ramp.scopes n).frozen = false) :=
  ⟨plant_listening _, listening_of (by decide +kernel), by decide +kernel⟩

theorem test_freezeRelease : answer frozen (.freezeRelease 11 1 4) 11 = some (.ok, 0x0400000000000000) := by
  decide +kernel

/-! ### Statistics control -/

def statsFrozen : State := after plant (.freeze 11 1)

theorem witness_StatFreezeUnfreezeClear :
    (plant.Listening supervisorPort ∧ plant.stats.frozen = false) ∧
      (statsFrozen.Listening supervisorPort ∧ statsFrozen.stats.frozen = true) :=
  ⟨⟨plant_listening _, by decide +kernel⟩, ⟨listening_of (by decide +kernel), by decide +kernel⟩⟩

theorem test_freeze_and_unfreeze :
    statsFrozen.stats.reason = { manual := true, overflow := false, hard := false } ∧
      (after statsFrozen (.unfreeze 11 1)).stats.frozen = false ∧
      (after statsFrozen (.clearAll 11 1)).stats.frozen = false := by decide +kernel

/-- A counter of curtailed kilowatts in ports 0 to 11, threshold 2,000, inverted, enabled (R138, R166). -/
def curtailed : Control :=
  { source := .curtail, mask := 0xFFF, mode := .magnitude, threshold := 2000, invert := true, freezeOnOverflow := false,
    enable := true }

def stationFilter : Filter :=
  { portMatch := 3, portMask := 12, kindMatch := 5, kindMask := 255, tagMatch := 128, tagMask := 129 }

theorem witness_StatControlWrites :
    plant.Listening supervisorPort ∧ ((0#8).toNat = (0 : Fin 8).val ∧ (7#8).toNat = (7 : Fin 8).val) ∧
      ((0x010FFF51000007D0#64).extractLsb' 56 8 = f8 curtailed.source.code ∧
        curtailed.mask = ((0x010FFF51000007D0#64).extractLsb' 40 16).truncate 12 ∧
        ((0x010FFF51000007D0#64).extractLsb' 32 2).toNat = curtailed.mode.code ∧
        curtailed.invert = (0x010FFF51000007D0#64).getLsbD 36 ∧
        curtailed.freezeOnOverflow = (0x010FFF51000007D0#64).getLsbD 37 ∧
        curtailed.enable = (0x010FFF51000007D0#64).getLsbD 38 ∧
        curtailed.threshold = (0x010FFF51000007D0#64).extractLsb' 0 32) ∧
      ((0#8).toNat = (0 : Fin 2).val ∧ (1#8).toNat = (1 : Fin 2).val) ∧ 7 < (8#8).toNat ∧
      20 < ((0x1500000000000000#64).extractLsb' 56 8).toNat ∧ (0x300000000#64).extractLsb' 32 2 = 3 ∧ 1 < (2#8).toNat :=
  ⟨plant_listening _, by decide⟩

theorem test_configure :
    (look (after plant (.configure 11 1 7 0x010FFF51000007D0)).stats.counters 7).control = curtailed ∧
      answer plant (.configure 11 1 7 0x1500000000000000) 11 = some (.refusedRange, 0) := by decide +kernel

theorem test_filter :
    look (after plant (.filter 11 1 1 0x3C05FF8081)).stats.filters 1 = stationFilter := by decide +kernel

theorem test_preset :
    answer statsFrozen (.preset 11 1 7 0xFFFFFFFFFF) 11 = some (.ok, 0x01FFFFFFFFFF0000) := by decide +kernel

theorem test_clearOvf :
    answer plant (.clearOvf 11 1 255) 11 = some (.ok, 0) ∧
      answer plant (.undefinedAction 11 1 8) 11 = some (.refusedRange, 0) := by decide +kernel

theorem test_freezeOnHard :
    (after plant (.freezeOnHard 11 1 1)).stats.freezeOnHard = true ∧
      (after plant (.freezeOnHard 11 1 0)).stats.freezeOnHard = false := by decide +kernel

/-! ### The run -/

theorem witness_TimerExpiryBeginsRun :
    (∀ p, (look plant.router.sets p).fresh = []) ∧ plant.engine.run = .running ∧
      ((∀ p, (look halted.router.sets p).fresh = []) ∧ halted.engine.run ≠ .running) ∧
      ((plant.storage.state ≠ .absent) ∧ State.reset.storage.state = .absent) ∧
      ((plant.station 5).state = .absent ∧ (plant.station 4).state = .joining ∧ (plant.station 2).state = .faulted ∧
        (plant.station 1).state = .parked) ∧
      ((plant.station 0).state = .online ∧ (plant.station 0).age + 1 ≤ plant.params.telWmax) ∧
      ((plant.station 9).state = .online ∧ plant.params.telWmax < (plant.station 9).age + 1 ∧
        (look plant.router.routes 2).reaches .stnStale 9 11 = true) ∧
      ((plant.station 3).state = .stale ∧ (plant.station 3).staleDuration + 1 = plant.params.telWdead) ∧
      (statsFrozen.engine.run = .running ∧ statsFrozen.stats.frozen = true) := by decide +kernel

/-- R59, R107: station 9 goes STALE at age 4; station 3 reaches TEL_WDEAD 25 and latches DEAD; the slot is read. -/
theorem test_timerExpiry :
    (let t := after plant .timerExpiry
     (t.station 9).state = .stale ∧ (t.station 3).staleDuration = 25 ∧ (t.station 3).statuses = 2 ∧
       t.engine.counter = 8 ∧ t.engine.meter = none) := by decide +kernel

/-- The plant after FAULT-CLEAR of station 3, whose DEAD follows at the next run start with WINDOW in LATCHED. -/
def clearedDead : State :=
  after (after plant (.monMode 11 1 0 2)) (.faultClear 11 1 3)

/-- R117, log entry 24: the clear is marked, and the premises of the two cases of the snapshot. -/
theorem witness_TimerExpiryBeginsRun_cleared :
    plant.lastClear = none ∧ clearedDead.lastClear = some 3 ∧
      (clearedDead.station 3).state = .stale ∧ ((after clearedDead .timerExpiry).station 3).state = .faulted ∧
      (after clearedDead .timerExpiry).lastClear = none := by decide +kernel

/-- R109: after any other event the clear was taken earlier, and the snapshot shows the entry as FAULTED. -/
theorem test_dead_after_another_event :
    (let shown (c : Instr) : Option StationState :=
       match (after (after clearedDead c) .timerExpiry).engine.run with
       | .inFlight run => some (look run.stations 3).state
       | .running | .halted => none
     shown (.histRead 11 1 0) = some .faulted ∧ shown (.frameStart 5) = some .faulted) := by decide +kernel

/-- Run 7 in flight with TAKE_DEADLINE 3, so that the interlock's count reaches 2 below it, and the parked station 1 marked
ready in a state that no run reaches. -/
def inRunLate : State :=
  ({ inRun with params := { inRun.params with takeDeadline := 3 } } : State).updStation 1 fun e => { e with ready := true }

/-- Run 7 in flight, with two held takes, station 7's interlock at one publication, at TAKE_DEADLINE 2 and below 3; station
8 becomes ready and station 1 ceases to be. -/
theorem witness_PublicationCommitsRun :
    ((∀ p, (look plant.router.sets p).fresh = []) ∧ plant.runInFlight = false) ∧
      ((∀ p, (look inRun.router.sets p).fresh = []) ∧ inRun.runInFlight = true ∧
        (∀ q, (inRun.port q).requests = []) ∧ (inRun.heldTakes.map HeldTake.station).Nodup) ∧
      ((inRun.station 7).afterDeadline inRun.params).interlock = none ∧
      ((∀ p, (look inRunLate.router.sets p).fresh = []) ∧ inRunLate.runInFlight = true ∧
        (((inRunLate.station 7).afterDeadline inRunLate.params).interlock.map Interlock.publications) = some 2) ∧
      (inRun.heldTakes[0]? = some { station := 0, tag := 3 } ∧ inRun.storage.held = some 4) ∧
      (plant.storage.held = none ∧ (8 : StationId) ∉ inRun.heldTakes.map HeldTake.station) ∧
      ((inRun.station 8).ready = false ∧ ((after inRun .publication).station 8).ready = true ∧
        (look inRun.router.routes 1).reaches .raiseReady 8 11 = true) ∧
      ((inRunLate.station 1).ready = true ∧ ((after inRunLate .publication).station 1).ready = false) := by
  decide +kernel

/-- R84: at the deadline the interlock ends by the worst case, with TAKE-TIMEOUT; the held takes are answered. -/
theorem test_publication :
    (let t := after inRun .publication
     t.engine.run = .running ∧ t.published.number = 7 ∧ t.engine.history.length = 4 ∧
       (t.station 7).interlock = none ∧ (t.station 7).applied = 9000 ∧ (t.station 7).statuses = 128 ∧
       t.heldTakes = [] ∧ (t.port 0).handler = .idle ∧ (t.port 0).replies.length = 1 ∧
       (t.port 10).replies.length = 1) := by decide +kernel

def snapOf (state : StationState) (rating avail : Nat) : StationSnap :=
  { state := state, rating := rating, group := 0, meas := 5000, avail := avail, applied := 0 }

/-- The plant of section 2.8 with three ONLINE stations' avail: S3 is STALE with meas 5,000. -/
def broken (a0 a1 a2 : Nat) : Vector StationSnap 10 :=
  #v[snapOf .online 20000 a0, snapOf .online 15000 a1, snapOf .online 15000 a2, snapOf .stale 9000 5000,
    snapOf .absent 0 0, snapOf .absent 0 0, snapOf .absent 0 0, snapOf .absent 0 0, snapOf .absent 0 0,
    snapOf .absent 0 0]

def runOf (source : SampleSource) (slot : Option MeterSample) (meas : Int) : RunInputs :=
  { number := 65543, stations := broken 16000 12000 12000
    storage := { state := .online, meas := meas, soc := 620, bdis := 8000, bchg := 8000 }
    params := { settings with sampleSource := source }, meter := slot }

/-- The boundaries of R15 and R13: the tag is the run number modulo 65,536. -/
theorem witness_SampleSelectedAndClamped :
    (let m : MeterSample := { value := 61240, tag := 7 }
     (runOf .metered (some m) 0).params.sampleSource = .metered ∧ (runOf .metered (some m) 0).meter = some m ∧
       m.tag = (runOf .metered (some m) 0).number.truncate 16) ∧
    ((runOf .summed none 0).params.sampleSource = .summed ∧ (runOf .metered none 0).meter = none ∧
      ∃ m, (runOf .metered (some { value := 5, tag := 6 }) 0).meter = some m ∧ m.tag ≠ 7) := by
  refine ⟨by decide, rfl, rfl, _, rfl, by decide⟩

/-- R15: a metered 61,240 at rating 60,000 gives 60,000; stations at 20,000 and a battery at −35,000 give 0. -/
theorem test_sample :
    sampleOf (runOf .metered (some { value := 61240, tag := 7 }) 0) =
        { value := 60000, source := .metered, clamped := true, fallback := false } ∧
      sampleOf (runOf .metered none (-35000)) = { value := 0, source := .summed, clamped := true, fallback := true } := by
  decide +kernel

theorem witness_FrontsAreWindowExtremes : past ≠ [] ∧ 1 ≤ settings.winShort ∧ 1 ≤ settings.winLong := by decide

/-- Fronts whose bounds meet exactly, and by one kilowatt not. -/
theorem witness_EnvelopeFromFronts :
    (let q := plant.engine.queues
     front q.shortMin = 39000 ∧ front q.longMin = 39000 ∧ front q.shortMax = 40000 ∧ front q.longMax = 41000) ∧
    (let x : Params := { settings with limShort := 500, limLong := 1000 }
     39500 = 39000 + x.limShort ∧ 39500 ≤ 39000 + x.limLong ∧ 39500 ≤ x.plantRating ∧
       ((40000 : Int) = (41000 : Int) - x.limLong) ∧ (40000 : Int) - x.limShort ≤ 40000 ∧ 39500 < 40000) ∧
    (let x : Params := { settings with limShort := 1000, limLong := 1000 }
     40000 = 39000 + x.limShort ∧ 40000 ≤ 39000 + x.limLong ∧ 40000 ≤ x.plantRating ∧
       ((40000 : Int) = (41000 : Int) - x.limLong) ∧ (40000 : Int) - x.limShort ≤ 40000 ∧ (40000 : Nat) ≤ 40000) := by
  decide +kernel

/-- R22: the bounds 40,000 and 39,500 collapse to 39,750 with a gap of 500. -/
theorem test_collapse :
    envelopeOf { settings with limShort := 500, limLong := 1000 } plant.engine.queues =
      { lower := 39750, upper := 39750, collapsed := true, gap := 500 } := by decide +kernel

/-- The five cases at their boundaries, for the envelope [47,500, 51,000] and limits of 8,000 (R30). -/
theorem witness_DispatchDecision :
    ((47500 : Nat) ≤ 51000 ∧ -((8000 : Nat) : Int) ≤ 1200 ∧ (1200 : Int) ≤ (8000 : Nat)) ∧
      ((47500 : Int) ≤ 46300 + 1200 ∧ (49800 : Int) + 1200 ≤ 51000) ∧
      ((51000 : Int) < 49801 + 1200 ∧ -(8000 : Int) ≤ 51000 - 59000 ∧ (51000 : Int) < 59000 + 1200) ∧
      ((51000 : Int) < 59001 + 1200 ∧ (51000 : Int) - 59001 < -8000) ∧
      ((46299 : Int) + 1200 < 47500 ∧ (47500 : Int) - 39500 ≤ 8000) ∧
      ((39499 : Int) + 1200 < 47500 ∧ (8000 : Int) < 47500 - 39499) ∧
      ((51000 : Int) + 8000 - 59001 < 0 ∧ (0 : Int) ≤ 51000 + 8000 - 59000) := by decide

/-- The first five runs of section 2.8, and the run in EXCESS. -/
theorem test_dispatch :
    decide78 47500 51000 45000 5000 1200 8000 8000 50000 =
        { b := 2500, plant := .support, shortfall := 0, excess := 0, allowance := 43500 } ∧
      decide78 47500 51000 47500 5000 0 8000 8000 50000 =
        { b := 0, plant := .free, shortfall := 0, excess := 0, allowance := 46000 } ∧
      decide78 47500 51000 52500 5000 1200 8000 8000 50000 =
        { b := -1500, plant := .absorb, shortfall := 0, excess := 0, allowance := 47500 } ∧
      decide78 47500 51000 55000 5000 2000 8000 0 50000 =
        { b := 0, plant := .curtail, shortfall := 0, excess := 0, allowance := 46000 } ∧
      decide78 47500 51000 27000 5000 1200 8000 8000 50000 =
        { b := 8000, plant := .short, shortfall := 12500, excess := 0, allowance := 38000 } ∧
      decide78 20000 22000 28000 25000 0 2000 2000 3000 =
        { b := -2000, plant := .excess, shortfall := 0, excess := 1000, allowance := 0 } := by decide

theorem witness_OffersSumToAllowance :
    ∀ i, (look (runOf .summed none 0).stations i).avail ≤ (look (runOf .summed none 0).stations i).rating := by
  decide +kernel

theorem witness_OffersFollowLargestRemainder :
    (look (broken 1 1 1) 3).state ≠ .online ∧ (look (broken 1 1 1) 0).state = .online ∧ (46000 : Nat) < 50000 ∧
      (43500 : Nat) ≥ 40000 ∧ 0 < spareSum (broken 16000 12000 12000) ∧
      spareSum (broken 20000 15000 15000) = 0 := by decide +kernel

/-- The offers of section 2.8: steady sun, deep shadow and full sun. -/
theorem test_offers :
    (offersOf (broken 17000 13000 12500) 46000 42500).toList.take 3 = [18400, 13933, 13667] ∧
      (offersOf (broken 9000 7000 6000) 38000 22000).toList.take 3 = [15286, 11571, 11143] ∧
      (offersOf (broken 20000 15000 15000) 46000 50000).toList.take 3 = [18400, 13800, 13800] := by decide +kernel

/-- The result of a run with the given sample value against the record in force. -/
def resultWith (value : Nat) : RunResult :=
  resultOf (runOf .metered (some { value := value, tag := 7 }) 0) Extrema.empty record

theorem witness_RampCheckAndResponsible :
    Published.cleared.plant = .none ∧ record.plant ≠ .none ∧ (resultWith 45001).responsible = some (0, 5000) ∧
      (resultWith 45000).responsible = none := by decide +kernel

/-- The result of an upward hard violation with a HARD_RESPONSE. -/
def hardWith (response : HardResponse) : RunResult :=
  let x := resultWith 45001
  { x with run := { x.run with params := { x.run.params with hardResponse := response } } }

theorem witness_RampCheckAndResponsible_freezes :
    (∀ response, (hardWith response).run.params.tolHard < (hardWith response).ramp.d ∧
      0 < (hardWith response).ramp.dUp) ∧
    ¬ (resultWith 45000).run.params.tolHard < (resultWith 45000).ramp.d ∧
    (hardWith .freezeGroup).responsible = some (0, 5000) ∧
    (let x := hardWith .freezeGroup
     ({ x with run := { x.run with stations := Vector.replicate 10 (snapOf .stale 9000 5000) } } : RunResult).responsible =
       none) :=
  ⟨fun response => by cases response <;> decide +kernel, by decide +kernel, by decide +kernel, by decide +kernel⟩

/-- R125: the responsible station's group, or the plant. -/
theorem test_freezes :
    (hardWith .report).freezes = none ∧ (hardWith .freezePlant).freezes = some plantScope ∧
      (hardWith .freezeGroup).freezes = some 0 := by decide +kernel

/-! ### Attention and statistics -/

theorem witness_FiringsMergeAndEnd :
    (look plant.router.sets 11).fresh = [] ∧
      ((look plant.router.routes (CauseKind.code .stnStale)).mask.getLsbD 3 = false ∧ (3 : Port) ≠ stationPort 9) ∧
      ((look plant.router.routes (CauseKind.code .stnStale)).mask.getLsbD 11 = true ∧
        (look plant.router.sets 11).entries = []) ∧
      ((CauseKind.code .stnStale).val ≤ 2 ∧ (look plant.router.routes (CauseKind.code .stnStale)).ownPort = true ∧
        (9 : Port) = stationPort 9) ∧
      ((look statsFrozen.router.sets 11).fresh = [] ∧
        (look statsFrozen.router.routes (CauseKind.code .statsFreeze)).mask.getLsbD 11 = true ∧
        ∃ e ∈ (look statsFrozen.router.sets 11).entries, (e.kind == .statsFreeze && e.inst == 0) = true) := by
  decide +kernel

/-- The plant with counter 0 watching CURTAIL in MAGNITUDE mode, or DROP, at a value. -/
def counting (source : StatSource) (value : BitVec 40) (freezeOnOverflow : Bool) : State :=
  { plant with
    stats := { plant.stats with
      counters := put plant.stats.counters 0
        { Counter.reset with
          value := value
          control := { source := source, mask := 0xFFF, mode := .magnitude, threshold := 0, invert := false,
                       freezeOnOverflow := freezeOnOverflow, enable := true } } } }

theorem witness_SourceEventsAreCounted :
    statsFrozen.stats.frozen = true ∧
      ((counting .drop 1099511627775 false).stats.frozen = false ∧
        2 ^ 40 ≤ (look (counting .drop 1099511627775 false).stats.counters 0).value.toNat + 1 ∧
        ∀ n, (look (counting .drop 1099511627775 false).stats.counters n).control.freezeOnOverflow = false) ∧
      ((counting .drop 1099511627775 true).stats.frozen = false ∧
        2 ^ 40 ≤ (look (counting .drop 1099511627775 true).stats.counters 0).value.toNat + 1 ∧
        (look (counting .drop 1099511627775 true).stats.counters 0).control.freezeOnOverflow = true) := by decide +kernel

theorem witness_PublicationIsOneAccountingStep :
    PlantState.curtail ≠ .none ∧ statsFrozen.stats.frozen = true ∧
      ((counting .curtail 1099511627000 true).stats.frozen = false ∧
        2 ^ 40 ≤ (look (counting .curtail 1099511627000 true).stats.counters 0).value.toNat + 776 ∧
        (look (counting .curtail 1099511627000 true).stats.counters 0).control.freezeOnOverflow = true) ∧
      ((after plant (.freezeOnHard 11 1 1)).stats.freezeOnHard = true ∧
        (([(.rampHard, 5)] : RunEvents).lookup .rampHard).isSome = true) := by decide +kernel

/-- R143: a counter at 1,099,511,627,000 that adds 2,400 holds 1,624 afterwards, with its flag set. -/
theorem test_overflow :
    (let st := ((counting .curtail 1099511627000 true).statPublication [(.run, 0), (.curtail, 2400)] .curtail false).stats
     (look st.counters 0).value = 1624 ∧ (look st.counters 0).overflow = true ∧ st.frozen = true ∧
       look st.residency 2 = 1 ∧ st.runCounter = 1) := by decide +kernel

/-- R46, R122, R134: each source occurs in one result and not in another. -/
theorem witness_PublicationIsOneAccountingStep_events :
    (let x := resultWith 45001
     x.run.params.tolHard < x.ramp.d ∧ x.sample.fallback = false ∧ x.record.plant = .free ∧ x.record.shortfall = 0 ∧
       x.record.excess = 0 ∧ x.record.collapsed = false ∧ x.record.fc ≤ x.record.allowance) ∧
    (∀ (plant : PlantState) (n : Fin 2),
      let x := resultWith 43000
      let y : RunResult :=
        { x with
          sample := { x.sample with fallback := true }
          record := { x.record with plant := plant, shortfall := n.val, excess := n.val, collapsed := true, fc := 1,
                                    allowance := n.val } }
      x.run.params.tolSoft ≥ x.ramp.d ∧ y.events.lookup .meterFallback = some 0 ∧
        y.events.lookup .excess = (if n.val = 0 then none else some n.val) ∧
        y.events.lookup .curtail = (if n.val = 0 then some 1 else none)) :=
  ⟨by decide +kernel, fun plant n => by cases plant <;> revert n <;> decide +kernel⟩

/-! ### Laws -/

theorem witness_KeptUntilReleased :
    runs (exec (.engHalt 11 1) captured) = true ∧ (∀ selected, Instr.engHalt 11 1 ≠ .powerOn selected) ∧
      (captured.ramp.capture.isLocked = true ∧
        captured.mayServe (.engHalt 11 1) (fun b => b == .captRelease) = false) ∧
      (statsFrozen.stats.frozen = true ∧ statsFrozen.mayServe (.clearOvf 11 1 255) (fun b => match b with
        | .statCtrl .unfreeze | .statCtrl .clearAll | .statCtrl (.preset _ _) => true
        | _ => false) = false) ∧
      (Instr.timerExpiry ≠ .publication ∧
        plant.mayServe .timerExpiry (fun b => b == .engStart || b == .engHalt) = false) :=
  ⟨by decide +kernel, fun _ => nofun, by decide +kernel⟩

/-- The laws of the ports in a state with two held takes and BUSY handlers, and a step from it. -/
theorem witness_PortLawsKept :
    ({ inRun with pending := [.publication] } : State).PortsWf ∧
      runs (step { inRun with pending := [.publication] }) = true :=
  ⟨⟨by decide +kernel, by decide +kernel, by decide +kernel, by decide +kernel, by decide +kernel, by decide +kernel⟩,
    by decide +kernel⟩

/-- The captured plant with one command waiting. -/
def attending : State := { captured with pending := [.timerExpiry] }

theorem attending_entries :
    ∀ p, ∀ e ∈ (look attending.router.sets p).entries, (1 ≤ e.count ∧ e.count ≤ 255) ∧
      (e.kind.isStation = false → e.inst = 0) ∧ (e.locked = true → e.kind = .rampHard) := by decide +kernel

theorem witness_PendingSetLawsKept :
    attending.SetsWf ∧ (look attending.router.sets 11).entries ≠ [] ∧ runs (step attending) = true :=
  ⟨⟨by decide +kernel, by decide +kernel, fun p e h =>
    ⟨(attending_entries p e h).1, (attending_entries p e h).2.1, (attending_entries p e h).2.2⟩⟩, by decide +kernel,
    by decide +kernel⟩

theorem record_lawful : record.Lawful :=
  ⟨by decide, by decide, by decide, by decide, by decide +kernel, by decide +kernel, by decide, by decide⟩

theorem witness_StationLawsKept :
    ({ plant with pending := [.timerExpiry] } : State).StationsWf ∧
      ({ plant with pending := [.timerExpiry] } : State).RecordWf ∧
      runs (step { plant with pending := [.timerExpiry] }) = true :=
  ⟨plant_stationsWf, ⟨record_lawful, fun _ e h => by revert e h; decide +kernel, fun _ h => (nomatch h)⟩, by decide +kernel⟩

theorem settings_wf : settings.Wf :=
  ⟨by decide, by decide, by decide, by decide, by decide, by decide, by decide, by decide, by decide, by decide,
    by decide, by decide, by decide, by decide,
    fun m n k h u => by
      have w : ∀ m n : Fin 8, (look settings.urgent m).isSome → look settings.urgent m = look settings.urgent n →
          m = n := by decide +kernel
      exact w m n (by rw [h]; rfl) (h.trans u.symm),
    fun n k h => by
      have w : ∀ n : Fin 8, ∀ k ∈ look settings.urgent n, kindDefined k = true := by decide +kernel
      exact w n k h⟩

theorem witness_EngineLawsKept :
    ({ plant with pending := [.timerExpiry] } : State).EngineWf ∧
      runs (step { plant with pending := [.timerExpiry] }) = true := by
  refine ⟨⟨settings_wf, by decide +kernel, fun a e newest h u => ?_, fun _ newest h => ?_, fun _ h => (nomatch h),
    fun _ => rfl⟩, by decide +kernel⟩
  · obtain rfl : _ = newest := Option.some.inj u
    match a, h with
    | 0, h => obtain rfl := Option.some.inj h; rfl
    | 1, h => obtain rfl := Option.some.inj h; rfl
    | 2, h => obtain rfl := Option.some.inj h; rfl
    | n + 3, h => exact nomatch h
  · obtain rfl : _ = newest := Option.some.inj h
    rfl

theorem witness_ModeLawsKept :
    ({ inRun with pending := [.publication] } : State).ModesWf ∧
      runs (step { inRun with pending := [.publication] }) = true :=
  ⟨⟨by decide +kernel, by decide +kernel, by decide +kernel, by decide +kernel, by decide +kernel, by decide +kernel⟩,
    by decide +kernel⟩

theorem witness_RequestHalvesRoundTrip :
    (Body.undefined 255).wellFormed = true ∧ (Body.telemetry 65535 65535).wellFormed = true ∧
      (Body.statCtrl (.undefined 8)).wellFormed = true ∧ (Body.statCtrl (.configure 7 0)).wellFormed = true := by decide

end Sys2Proof.Tests
end

