-- ==== Sys2Proof/Proofs/Envelope.lean ====
section
/-! PROOFS. The Envelope Engine's ramp and envelope: the sample of a run, the envelope from the four fronts, and the
requests METER, PLANT-READ and HIST-READ. -/

namespace Sys2Proof.Machine

/-! ### The sample of a run -/

/-- A clamp to an interval that is not empty is a maximum of a minimum. -/
theorem clamp_eq_max_min {lo hi : Int} (h : lo ≤ hi) (x : Int) : clamp lo hi x = max lo (min hi x) := by
  unfold clamp
  split
  · omega
  · split <;> omega

theorem meteredValue_of_tagged {run : RunInputs} {m : MeterSample} (hs : run.params.sampleSource = .metered)
    (hm : run.meter = some m) (ht : m.tag = intervalTag run.number) : meteredValue run = some m.value := by
  simp only [meteredValue, hs, hm, ht, if_true]

/-- The three ways in which a run has no metered value (R13). -/
theorem meteredValue_eq_none {run : RunInputs}
    (h : run.params.sampleSource = .summed ∨ run.meter = none ∨
      ∃ m, run.meter = some m ∧ m.tag ≠ intervalTag run.number) : meteredValue run = none := by
  rcases h with hs | hm | ⟨m, hm, ht⟩
  · simp only [meteredValue, hs]
  · cases hs : run.params.sampleSource <;> simp only [meteredValue, hs, hm]
  · cases hs : run.params.sampleSource <;> simp only [meteredValue, hs, hm, ht, if_false]

/-- What the sample of a run makes of the selected value: the value clamped to the plant rating, the value's source, and
whether the clamp changed it (R15). -/
structure Sample.Clamps (x : Sample) (rating : Nat) (raw : Int) (source : SampleSource) : Prop where
  value : (x.value : Int) = max 0 (min (rating : Int) raw)
  source : x.source = source
  clamped : x.clamped = true ↔ raw < 0 ∨ (rating : Int) < raw

theorem sampleOf_clamps {run : RunInputs} {raw : Int} {source : SampleSource} (h : rawSample run = (raw, source)) :
    (sampleOf run).Clamps run.params.plantRating raw source := by
  have hc := clamp_eq_max_min (Int.natCast_nonneg run.params.plantRating) raw
  constructor
  · simp only [sampleOf, h, hc]
    omega
  · simp only [sampleOf, h]
  · simp only [sampleOf, h, hc, bne_iff_ne]
    omega

theorem sampleOf_metered {run : RunInputs} {m : MeterSample} (hs : run.params.sampleSource = .metered)
    (hm : run.meter = some m) (ht : m.tag = intervalTag run.number) :
    (sampleOf run).Clamps run.params.plantRating m.value .metered :=
  sampleOf_clamps (by simp only [rawSample, meteredValue_of_tagged hs hm ht])

theorem sampleOf_summed {run : RunInputs} (h : meteredValue run = none) :
    (sampleOf run).Clamps run.params.plantRating (summedValue run) .summed :=
  sampleOf_clamps (by simp only [rawSample, h])

theorem sampleOf_fallback (run : RunInputs) :
    (sampleOf run).fallback = true ↔ run.params.sampleSource = .metered ∧ run.meter = none := by
  simp only [sampleOf, Bool.and_eq_true, beq_iff_eq, Option.isNone_iff_eq_none]

/-- Settles O43: the source decides the selected value (`meteredValue`), and the clamp is the same for both
sources (`sampleOf_clamps`); the later stages of the run read the clamped value by definition. -/
theorem sampleSelectedAndClamped : Obligations.SampleSelectedAndClamped := by
  intro run queues prev summed rating holds
  refine ⟨fun m hs hm ht => ?_, fun h => ?_, sampleOf_fallback run, rfl, rfl, rfl, rfl⟩
  · obtain ⟨value, source, clamped⟩ := sampleOf_metered hs hm ht
    exact ⟨value, source, clamped⟩
  · obtain ⟨value, source, clamped⟩ := sampleOf_summed (meteredValue_eq_none h)
    exact ⟨value, source, clamped⟩

/-! ### The envelope -/

/-- The upper bound is the one of the three candidates of R21 that is at most the others. -/
theorem upperBound_eq {x : Params} {q : Extrema} {u : Nat}
    (one : u = front q.shortMin + x.limShort ∨ u = front q.longMin + x.limLong ∨ u = x.plantRating)
    (short : u ≤ front q.shortMin + x.limShort) (long : u ≤ front q.longMin + x.limLong)
    (rating : u ≤ x.plantRating) : upperBound x q = u := by
  unfold upperBound
  omega

/-- The lower bound is the one of the three candidates of R21 that is at least the others. -/
theorem lowerBound_eq {x : Params} {q : Extrema} {l : Nat}
    (one : (l : Int) = (front q.shortMax : Int) - x.limShort ∨ (l : Int) = (front q.longMax : Int) - x.limLong ∨
      l = 0)
    (short : (front q.shortMax : Int) - x.limShort ≤ l) (long : (front q.longMax : Int) - x.limLong ≤ l) :
    lowerBound x q = l := by
  unfold lowerBound
  omega

theorem envelopeOfBounds_of_le {l u : Nat} (h : l ≤ u) :
    envelopeOfBounds l u = { lower := l, upper := u, collapsed := false, gap := 0 } := if_pos h

theorem envelopeOfBounds_of_lt {l u : Nat} (h : u < l) :
    envelopeOfBounds l u = { lower := (l + u) / 2, upper := (l + u) / 2, collapsed := true, gap := l - u } :=
  if_neg (Nat.not_le_of_lt h)

/-- Settles O45: the tightest candidates are the model's bounds, and the envelope is decided by their order. -/
theorem envelopeFromFronts : Obligations.EnvelopeFromFronts := by
  rintro x q _ _ _ _ rfl rfl rfl rfl upper lower oneU shortU longU rating oneL shortL longL
  have hu : upperBound x q = upper := upperBound_eq oneU shortU longU rating
  have hl : lowerBound x q = lower := lowerBound_eq oneL shortL longL
  unfold envelopeOf
  rw [hu, hl]
  exact ⟨envelopeOfBounds_of_le, envelopeOfBounds_of_lt⟩

/-! ### Requests that leave the router alone -/

theorem supervisorOnly_supervisorPort (s : State) (x : State × Reply) :
    supervisorOnly supervisorPort s x = answered x := if_pos roleOf_supervisorPort

/-- A request row on a port that serves at once, whose service leaves the router alone and marks no FAULT-CLEAR, leaves
the service's state with the answer in the reply queue. -/
theorem exec_of_answer {s u : State} {c : Instr} {p : Port} {r : Request} {x : Reply} (h : s.Serves p)
    (hc : requestOf c = some (p, r)) (hr : r.body ≠ .engHalt) (hb : serveBody s.nextEvent p r = answered (u, x))
    (hl : u.lastClear = none) (hu : u.router = s.router) :
    exec c s = .next (u.replyOn p r.body.kind r.tag x.code x.payload) := by
  have settled : ∀ q, (look u.router.sets q).fresh = [] := by
    rw [hu]
    exact h.listening.quiet.settled
  rw [exec_of_requestOf hc, request_of_settled_answer h hr hb hl settled]

/-! ### METER -/

theorem serveMeter_of_halted {s : State} (h : s.halted = true) (value : BitVec 32) (k : BitVec 16) :
    serveMeter s value k = (s, refuse .refusedState) := if_pos h

theorem serveMeter_of_other_tag {s : State} (h : s.halted = false) {k : BitVec 16}
    (hk : k ≠ intervalTag s.engine.counter) (value : BitVec 32) :
    serveMeter s value k = (s, refuse .refusedTag) := by
  simp only [serveMeter, h, bne_iff_ne, hk, ne_eq, not_false_eq_true, if_true, Bool.false_eq_true, if_false]

theorem serveMeter_of_tag {s : State} (h : s.halted = false) {k : BitVec 16}
    (hk : k = intervalTag s.engine.counter) (value : BitVec 32) :
    serveMeter s value k =
      (s.setEngine { s.engine with meter := some { value := min value.toNat plantTop, tag := k } },
        { code := if plantTop < value.toNat then .okClamped else .ok
          payload := f32 (min value.toNat plantTop) ++ (0 : BitVec 32) }) := by
  simp only [serveMeter, h, hk, bne_self_eq_false, Bool.false_eq_true, if_false]

/-- What the service of METER leaves is what the command leaves, with the answer in the supervisor's queue. -/
theorem exec_meter {s u : State} {tag : Byte} {value : BitVec 32} {k : BitVec 16} {x : Reply}
    (h : s.Listening supervisorPort) (hm : serveMeter s.nextEvent value k = (u, x)) :
    exec (.meter supervisorPort tag value k) s = .next (u.replyOn supervisorPort 20 tag x.code x.payload) := by
  have hf := serveMeter_frame s.nextEvent value k
  rw [hm] at hf
  obtain ⟨-, -, -, -, -, -, -, router, -, -, lastClear, -⟩ := hf
  exact exec_of_answer (r := { tag := tag, body := .meter value k }) (serves_supervisor h) rfl (by simp)
    ((supervisorOnly_supervisorPort _ _).trans (congrArg answered hm)) lastClear router

/-- Settles O35: the three branches of `serveMeter`, in the order of its tests. -/
theorem meterFillsSlot : Obligations.MeterFillsSlot := by
  refine ⟨rfl, fun s tag value k h => ⟨fun halted => ?_, fun running other => ?_, fun running own => ?_⟩⟩
  · exact exec_meter h (serveMeter_of_halted (s := s.nextEvent) halted value k)
  · exact exec_meter h (serveMeter_of_other_tag (s := s.nextEvent) running other value)
  · exact exec_meter h (serveMeter_of_tag (s := s.nextEvent) running own value)

/-! ### PLANT-READ -/

theorem index?_of_lt {n x : Nat} (h : x < n) : index? n x = some ⟨x, h⟩ := dif_pos h

theorem index?_of_le {n x : Nat} (h : n ≤ x) : index? n x = none := dif_neg (Nat.not_lt_of_le h)

/-- A mask of stations as a number is the sum of its stations' bits. -/
theorem bitsOf_stations (v : Vector Bool 10) :
    bitsOf v = sumStations fun i => if look v i then 2 ^ i.val else 0 := rfl

theorem flagAt_eq (n : Nat) (b : Bool) : flagAt n b = if b then 2 ^ n else 0 := rfl

/-- Page 0 holds the run's number, then the plant state and the record's flags from bit 3 on. -/
theorem page_zero (r : Published) :
    r.page 0 = some (r.number ++ f8 (r.plant.code + (if r.collapsed then 8 else 0) +
      (if r.source = .metered then 16 else 0) + (if r.clamped then 32 else 0) +
      (if r.storageOnline then 64 else 0)) ++ 0#8) := by
  simp only [Published.page, flagAt_eq, beq_iff_eq]
  rfl

/-- Page 7 holds the excess and the mask, bit i for station i. -/
theorem page_seven (r : Published) :
    r.page 7 = some (f24 r.excess ++ f24 (sumStations fun i => if look r.mask i then 2 ^ i.val else 0)) := by
  rw [← bitsOf_stations]
  rfl

/-- The pages above 7 are those of the offers, two stations a page (R178). -/
theorem page_of_offers (r : Published) (n : Nat) :
    r.page (n + 8) =
      match index? 10 (2 * n), index? 10 (2 * n + 1) with
      | some a, some b => some (f16 (look r.offers a) ++ f16 (look r.offers b) ++ (0 : BitVec 16))
      | _, _ => none := rfl

theorem page_of_two_offers (r : Published) {page : Nat} {a b : StationId} (hp : 8 ≤ page)
    (ha : a.val = 2 * (page - 8)) (hb : b.val = 2 * (page - 8) + 1) :
    r.page page = some (f16 (look r.offers a) ++ f16 (look r.offers b) ++ (0 : BitVec 16)) := by
  obtain ⟨n, rfl⟩ := Nat.exists_eq_add_of_le' hp
  rw [Nat.add_sub_cancel] at ha hb
  rw [page_of_offers, ← hb, ← ha, index?_of_lt a.isLt, index?_of_lt b.isLt]

theorem page_above_last (r : Published) {page : Nat} (h : 12 < page) : r.page page = none := by
  obtain ⟨n, rfl⟩ := Nat.exists_eq_add_of_le' (show 8 ≤ page by omega)
  rw [page_of_offers, index?_of_le (show 10 ≤ 2 * n by omega)]

/-- What PLANT-READ answers: the service only reads. -/
theorem exec_plantRead {s : State} {tag page : Byte} {x : Reply} (h : s.Listening supervisorPort)
    (hx : servePlantRead s.nextEvent page = (s.nextEvent, x)) :
    exec (.plantRead supervisorPort tag page) s = .next (s.replyOn supervisorPort 25 tag x.code x.payload) :=
  exec_of_answer (u := s.nextEvent) (r := { tag := tag, body := .plantRead page }) (serves_supervisor h) rfl (by simp)
    ((supervisorOnly_supervisorPort _ _).trans (congrArg answered hx)) rfl rfl

/-- PLANT-READ of a page that the record has. -/
theorem exec_plantRead_page {s : State} {tag page : Byte} {x : BitVec 48} (h : s.Listening supervisorPort)
    (hx : s.published.page page.toNat = some x) :
    exec (.plantRead supervisorPort tag page) s =
      .next (s.replyOn supervisorPort 25 tag .ok (intervalTag s.published.number ++ x)) :=
  exec_plantRead (x := { code := .ok, payload := intervalTag s.published.number ++ x }) h (by
    simp only [servePlantRead, nextEvent_eq, setLastClear_published, hx, Published.tag])

/-- PLANT-READ of a page that the record has not. -/
theorem exec_plantRead_refused {s : State} {tag page : Byte} (h : s.Listening supervisorPort)
    (hx : s.published.page page.toNat = none) :
    exec (.plantRead supervisorPort tag page) s = .next (s.replyOn supervisorPort 25 tag .refusedRange 0) :=
  exec_plantRead (x := refuse .refusedRange) h (by
    simp only [servePlantRead, nextEvent_eq, setLastClear_published, hx])

/-! ### HIST-READ -/

theorem serveHistRead_of_entry {s : State} {age : BitVec 16} {e : HistEntry} (ha : age.toNat ≤ 599)
    (he : s.engine.history[age.toNat]? = some e) :
    serveHistRead s age =
      (s, { code := .ok
            payload := e.number ++ f24 e.sample ++ f8 (flagAt 0 (e.source == .metered) + flagAt 1 e.clamped) }) := by
  have hn : ¬ historyLength ≤ age.toNat := by unfold historyLength; omega
  simp only [serveHistRead, he, hn, if_false]

theorem serveHistRead_refused {s : State} {age : BitVec 16}
    (h : 599 < age.toNat ∨ s.engine.history.length ≤ age.toNat) :
    serveHistRead s age = (s, refuse .refusedRange) := by
  unfold serveHistRead
  split
  · rfl
  · next e he =>
    have ha : historyLength ≤ age.toNat :=
      h.resolve_right (Nat.not_le_of_lt (List.getElem?_eq_some_iff.1 he).1)
    rw [if_pos ha]

/-- What HIST-READ answers: the service only reads. -/
theorem exec_histRead {s : State} {tag : Byte} {age : BitVec 16} {x : Reply} (h : s.Listening supervisorPort)
    (hx : serveHistRead s.nextEvent age = (s.nextEvent, x)) :
    exec (.histRead supervisorPort tag age) s = .next (s.replyOn supervisorPort 26 tag x.code x.payload) :=
  exec_of_answer (u := s.nextEvent) (r := { tag := tag, body := .histRead age }) (serves_supervisor h) rfl (by simp)
    ((supervisorOnly_supervisorPort _ _).trans (congrArg answered hx)) rfl rfl

/-- Settles O23: each page is one branch of `Published.page`, and an age finds its entry or is refused. -/
theorem plantReadAndHistRead : Obligations.PlantReadAndHistRead := by
  refine ⟨fun s tag h => ?_, fun s tag age h => ⟨fun e ha he => ?_, fun ha => ?_⟩⟩
  · exact ⟨exec_plantRead_page h (page_zero _), exec_plantRead_page h rfl, exec_plantRead_page h rfl,
      exec_plantRead_page h rfl, exec_plantRead_page h rfl, exec_plantRead_page h rfl, exec_plantRead_page h rfl,
      exec_plantRead_page h (page_seven _),
      fun page a b hp ha hb => exec_plantRead_page h (page_of_two_offers _ hp ha hb),
      fun page hp => exec_plantRead_refused h (page_above_last _ hp)⟩
  · rw [exec_histRead h (serveHistRead_of_entry (s := s.nextEvent) ha he)]
    simp only [flagAt_eq, beq_iff_eq]
    rfl
  · exact exec_histRead h (serveHistRead_refused (s := s.nextEvent) ha)

end Sys2Proof.Machine
end

/-! PROOFS. The Dispatch Allocator: the five dispatch cases and the allowance, the record of a run, and offers that sum to
the allowance and stay within the ratings. -/

namespace Sys2Proof.Machine

/-! ### The dispatch case -/

section
variable {l u f bPref dis chg : Int}

theorem dispatchCase_free (hl : l ≤ f + bPref) (hu : f + bPref ≤ u) :
    dispatchCase l u f bPref dis chg = (bPref, .free) := if_pos ⟨hl, hu⟩

theorem dispatchCase_of_above (h : u < f + bPref) :
    dispatchCase l u f bPref dis chg = if -chg ≤ u - f then (u - f, .absorb) else (-chg, .curtail) := by
  simp only [dispatchCase, h, not_le_of_gt h, and_false, if_false, if_true]

theorem dispatchCase_absorb (h : u < f + bPref) (hc : -chg ≤ u - f) :
    dispatchCase l u f bPref dis chg = (u - f, .absorb) := (dispatchCase_of_above h).trans (if_pos hc)

theorem dispatchCase_curtail (h : u < f + bPref) (hc : u - f < -chg) :
    dispatchCase l u f bPref dis chg = (-chg, .curtail) :=
  (dispatchCase_of_above h).trans (if_neg (not_le_of_gt hc))

theorem dispatchCase_of_below (hlu : l ≤ u) (h : f + bPref < l) :
    dispatchCase l u f bPref dis chg = if l - f ≤ dis then (l - f, .support) else (dis, .short) := by
  have hu : ¬ u < f + bPref := by omega
  simp only [dispatchCase, hu, not_le_of_gt h, false_and, if_false]

theorem dispatchCase_support (hlu : l ≤ u) (h : f + bPref < l) (hd : l - f ≤ dis) :
    dispatchCase l u f bPref dis chg = (l - f, .support) := (dispatchCase_of_below hlu h).trans (if_pos hd)

theorem dispatchCase_short (hlu : l ≤ u) (h : f + bPref < l) (hd : dis < l - f) :
    dispatchCase l u f bPref dis chg = (dis, .short) :=
  (dispatchCase_of_below hlu h).trans (if_neg (not_le_of_gt hd))

/-- The five cases of R30 are all there are: each with its test, its setpoint and its plant state. -/
theorem dispatchCase_cases (hlu : l ≤ u) (bPref dis chg : Int) :
    (l ≤ f + bPref ∧ f + bPref ≤ u ∧ dispatchCase l u f bPref dis chg = (bPref, .free)) ∨
    (u < f + bPref ∧ -chg ≤ u - f ∧ dispatchCase l u f bPref dis chg = (u - f, .absorb)) ∨
    (u < f + bPref ∧ u - f < -chg ∧ dispatchCase l u f bPref dis chg = (-chg, .curtail)) ∨
    (f + bPref < l ∧ l - f ≤ dis ∧ dispatchCase l u f bPref dis chg = (l - f, .support)) ∨
    (f + bPref < l ∧ dis < l - f ∧ dispatchCase l u f bPref dis chg = (dis, .short)) := by
  rcases lt_or_ge u (f + bPref) with above | notAbove
  · rcases le_or_gt (-chg) (u - f) with hc | hc
    · exact .inr (.inl ⟨above, hc, dispatchCase_absorb above hc⟩)
    · exact .inr (.inr (.inl ⟨above, hc, dispatchCase_curtail above hc⟩))
  · rcases lt_or_ge (f + bPref) l with below | notBelow
    · rcases le_or_gt (l - f) dis with hd | hd
      · exact .inr (.inr (.inr (.inl ⟨below, hd, dispatchCase_support hlu below hd⟩)))
      · exact .inr (.inr (.inr (.inr ⟨below, hd, dispatchCase_short hlu below hd⟩)))
    · exact .inl ⟨notBelow, notAbove, dispatchCase_free notBelow notAbove⟩

/-- The setpoint keeps the limits that the preference keeps (R31). -/
theorem dispatchCase_within_limits (hlu : l ≤ u) (hlo : -chg ≤ bPref) (hhi : bPref ≤ dis) :
    -chg ≤ (dispatchCase l u f bPref dis chg).1 ∧ (dispatchCase l u f bPref dis chg).1 ≤ dis := by
  rcases dispatchCase_cases (f := f) hlu bPref dis chg with
    ⟨_, _, h⟩ | ⟨_, _, h⟩ | ⟨_, _, h⟩ | ⟨_, _, h⟩ | ⟨_, _, h⟩ <;> simp only [h] <;> omega

theorem dispatchCase_eq_short_iff (hlu : l ≤ u) :
    (dispatchCase l u f bPref dis chg).2 = .short ↔ f + bPref < l ∧ dis < l - f := by
  rcases dispatchCase_cases (f := f) hlu bPref dis chg with
    ⟨_, _, h⟩ | ⟨_, _, h⟩ | ⟨_, _, h⟩ | ⟨_, _, h⟩ | ⟨_, _, h⟩ <;>
    simp only [h, reduceCtorEq, true_iff, false_iff] <;> omega

/-- A held output within the forecast leaves room below the upper bound, but for a CURTAIL. -/
theorem dispatchCase_room_or_curtail {u0 : Int} (hlu : l ≤ u) (h0 : u0 ≤ f) :
    0 ≤ u - (dispatchCase l u f bPref dis chg).1 - u0 ∨ (u < f + bPref ∧ u - f < -chg) := by
  rcases dispatchCase_cases (f := f) hlu bPref dis chg with
    ⟨_, _, h⟩ | ⟨_, _, h⟩ | ⟨_, _, h⟩ | ⟨_, _, h⟩ | ⟨_, _, h⟩ <;> simp only [h] <;> omega

end

/-! ### The allowance -/

section
variable {l u f u0 : Nat} {bPref : Int} {dis chg ratings : Nat}

theorem decide78_b (l u f u0 : Nat) (bPref : Int) (dis chg ratings : Nat) :
    (decide78 l u f u0 bPref dis chg ratings).b = (dispatchCase l u f bPref dis chg).1 := rfl

theorem decide78_of_excess (h : (u : Int) - (decide78 l u f u0 bPref dis chg ratings).b - u0 < 0) :
    (decide78 l u f u0 bPref dis chg ratings).plant = .excess ∧
      (decide78 l u f u0 bPref dis chg ratings).allowance = 0 ∧
      ((decide78 l u f u0 bPref dis chg ratings).excess : Int) =
        -((u : Int) - (decide78 l u f u0 bPref dis chg ratings).b - u0) := by
  rw [decide78_b] at h
  simp only [decide78, h, if_true, true_and]
  omega

theorem decide78_of_room (h : 0 ≤ (u : Int) - (decide78 l u f u0 bPref dis chg ratings).b - u0) :
    (decide78 l u f u0 bPref dis chg ratings).plant = (dispatchCase l u f bPref dis chg).2 ∧
      (decide78 l u f u0 bPref dis chg ratings).excess = 0 ∧
      ((decide78 l u f u0 bPref dis chg ratings).allowance : Int) =
        min ((u : Int) - (decide78 l u f u0 bPref dis chg ratings).b - u0) ratings := by
  rw [decide78_b] at h
  simp only [decide78, not_lt_of_ge h, if_false, true_and]
  omega

/-- A dispatch case fixes the setpoint, and the plant state too unless the room is negative. -/
theorem decide78_of_case {b : Int} {plant : PlantState} (h : dispatchCase l u f bPref dis chg = (b, plant)) :
    (decide78 l u f u0 bPref dis chg ratings).b = b ∧
      (0 ≤ (u : Int) - (decide78 l u f u0 bPref dis chg ratings).b - u0 →
        (decide78 l u f u0 bPref dis chg ratings).plant = plant) :=
  ⟨congrArg Prod.fst h, fun room => (decide78_of_room room).1.trans (congrArg Prod.snd h)⟩

theorem decide78_shortfall_of_short (h : dispatchCase l u f bPref dis chg = ((dis : Int), .short))
    (hd : (dis : Int) < (l : Int) - f) :
    ((decide78 l u f u0 bPref dis chg ratings).shortfall : Int) = (l : Int) - f - dis := by
  simp only [decide78, h, if_true]
  omega

/-- Only the SHORT case leaves a shortfall. -/
theorem decide78_shortfall_eq_zero (hlu : (l : Int) ≤ u) (h : (l : Int) ≤ f + bPref ∨ (l : Int) - f ≤ dis) :
    (decide78 l u f u0 bPref dis chg ratings).shortfall = 0 :=
  if_neg fun short => by
    obtain ⟨below, beyond⟩ := (dispatchCase_eq_short_iff hlu).1 short
    omega

theorem decide78_allowance_le (l u f u0 : Nat) (bPref : Int) (dis chg ratings : Nat) :
    (decide78 l u f u0 bPref dis chg ratings).allowance ≤ ratings := by
  simp only [decide78]
  split
  · exact Nat.zero_le _
  · exact Nat.min_le_right _ _

end

/-! ### The inputs of the decision -/

theorem onlineIn_iff {stations : Vector StationSnap 10} {i : StationId} :
    onlineIn stations i = true ↔ (look stations i).state = .online := beq_iff_eq

theorem ratingSum_eq (stations : Vector StationSnap 10) :
    ratingSum stations =
      sumStations fun i => if (look stations i).state = .online then (look stations i).rating else 0 := by
  simp only [ratingSum, onlineIn_iff]

theorem forecastOnline_eq (stations : Vector StationSnap 10) :
    forecastOnline stations =
      sumStations fun i => if (look stations i).state = .online then (look stations i).avail else 0 := by
  simp only [forecastOnline, onlineIn_iff]

theorem held_iff {x : StationState} : x.held = true ↔ ¬ (x = .online ∨ x = .absent) := by
  cases x <;> decide

theorem forecastHeld_eq (stations : Vector StationSnap 10) :
    forecastHeld stations = sumStations fun i =>
      if (look stations i).state = .online ∨ (look stations i).state = .absent then 0 else (look stations i).meas := by
  simp only [forecastHeld, held_iff, ite_not]

theorem effectiveLimits_eq (state : StorageState) (soc bdis bchg socMin socMax : Nat) :
    effectiveLimits state soc bdis bchg socMin socMax =
      (if (state == .online) = true ∧ socMin < soc then bdis else 0,
        if (state == .online) = true ∧ soc < socMax then bchg else 0) := by
  unfold effectiveLimits
  split
  · next online => simp only [online, beq_self_eq_true, true_and, ← Nat.not_le, ite_not]
  · next offline => simp only [offline, beq_iff_eq, false_and, if_false]

theorem runLimits_fst (run : RunInputs) :
    (runLimits run).1 =
      if (run.storage.state == .online) = true ∧ run.params.socMin < run.storage.soc then run.storage.bdis else 0 :=
  congrArg Prod.fst (effectiveLimits_eq _ _ _ _ _ _)

theorem runLimits_snd (run : RunInputs) :
    (runLimits run).2 =
      if (run.storage.state == .online) = true ∧ run.storage.soc < run.params.socMax then run.storage.bchg else 0 :=
  congrArg Prod.snd (effectiveLimits_eq _ _ _ _ _ _)

theorem preference_eq (x : Params) (soc dis chg : Nat) :
    preference x soc dis chg = max (-(chg : Int)) (min (dis : Int)
      (max (-(x.recoveryCap : Int)) (min (x.recoveryCap : Int) (x.socGain * ((soc : Int) - x.socTarget))))) := by
  rw [preference, clamp_eq_max_min (by omega), clamp_eq_max_min (by omega)]

/-- Settles O46: each case of R30 fixes the setpoint, the sign of the room decides R34, and the record of a run applies
the decision to the snapshot's sums. -/
theorem dispatchDecision : Obligations.DispatchDecision := by
  refine ⟨fun l u f u0 bPref dis chg ratings hlu hlo hhi => ?_, fun run queues prev => ?_⟩
  · have hlu' : (l : Int) ≤ u := Int.ofNat_le.2 hlu
    have limits := dispatchCase_within_limits (f := f) hlu' hlo hhi
    have roomOr (h0 : u0 ≤ f) :=
      dispatchCase_room_or_curtail (bPref := bPref) (dis := dis) (chg := chg) hlu' (Int.ofNat_le.2 h0)
    refine ⟨fun hl hu => decide78_of_case (dispatchCase_free hl hu),
      fun h hc => decide78_of_case (dispatchCase_absorb h hc),
      fun h hc => decide78_of_case (dispatchCase_curtail h hc),
      fun h hd => decide78_of_case (dispatchCase_support hlu' h hd), fun h hd => ?_,
      decide78_shortfall_eq_zero hlu', limits, decide78_of_excess,
      fun room => (decide78_of_room room).2, fun h0 => ?_, roomOr⟩
    · have hcase := dispatchCase_short (chg := chg) hlu' h hd
      have amount := decide78_shortfall_of_short (u0 := u0) (ratings := ratings) hcase hd
      obtain ⟨setpoint, plant⟩ := decide78_of_case (u0 := u0) (ratings := ratings) hcase
      exact ⟨setpoint, amount, by omega, plant⟩
    · rcases roomOr h0 with room | ⟨above, _⟩
      · exact .inr (decide78_of_room room).2.1
      · exact .inl (decide78_shortfall_eq_zero hlu' (.inl (by omega)))
  · refine ⟨rfl, rfl, ?_⟩
    simp only [← forecastOnline_eq, ← forecastHeld_eq, ← ratingSum_eq, ← runLimits_fst, ← runLimits_snd,
      ← preference_eq]
    rfl

/-! ### Sums over the stations of a mask -/

/-- The stations of a mask. -/
def maskSet (mask : StationId → Bool) : Finset StationId := Finset.univ.filter fun i => mask i = true

@[simp] theorem mem_maskSet {mask : StationId → Bool} {i : StationId} : i ∈ maskSet mask ↔ mask i = true := by
  simp [maskSet]

theorem sumStations_eq_sum (f : StationId → Nat) : sumStations f = ∑ i, f i := (Fin.sum_univ_def f).symm

theorem sumStations_mask (mask : StationId → Bool) (f : StationId → Nat) :
    (sumStations fun i => if mask i then f i else 0) = ∑ i ∈ maskSet mask, f i := by
  rw [sumStations_eq_sum, maskSet, Finset.sum_filter]

/-! ### Ranks -/

section
variable {α : Type} {S : Finset α} {key : α → Nat} {i j : α}

/-- How many elements of a set have a larger key than `i`. -/
def rankIn (S : Finset α) (key : α → Nat) (i : α) : Nat := (S.filter fun j => key i < key j).card

theorem rankIn_lt_rankIn (hj : j ∈ S) (h : key i < key j) : rankIn S key j < rankIn S key i := by
  refine Finset.card_lt_card ((Finset.ssubset_iff_of_subset ?_).2 ⟨j, ?_, ?_⟩)
  · exact Finset.monotone_filter_right _ fun _ _ above => h.trans above
  · exact Finset.mem_filter.2 ⟨hj, h⟩
  · exact fun mem => lt_irrefl _ (Finset.mem_filter.1 mem).2

theorem rankIn_lt_card (hi : i ∈ S) : rankIn S key i < S.card :=
  Finset.card_lt_card (Finset.filter_ssubset.2 ⟨i, hi, lt_irrefl _⟩)

theorem rankIn_injOn (hkey : Set.InjOn key S) : Set.InjOn (rankIn S key) S := fun i hi j hj same => by
  rcases lt_trichotomy (key i) (key j) with h | h | h
  · exact absurd same (rankIn_lt_rankIn hj h).ne'
  · exact hkey hi hj h
  · exact absurd same (rankIn_lt_rankIn hi h).ne

/-- Distinct keys give each rank below the number of elements exactly once. -/
theorem image_rankIn (hkey : Set.InjOn key S) : S.image (rankIn S key) = Finset.range S.card := by
  refine Finset.eq_of_subset_of_card_le ?_ ?_
  · exact Finset.image_subset_iff.2 fun i hi => Finset.mem_range.2 (rankIn_lt_card hi)
  · rw [Finset.card_range, Finset.card_image_of_injOn (rankIn_injOn hkey)]

theorem card_filter_rankIn_lt (hkey : Set.InjOn key S) {k : Nat} (hk : k ≤ S.card) :
    (S.filter (rankIn S key · < k)).card = k :=
  calc (S.filter (rankIn S key · < k)).card
      = ((S.filter (rankIn S key · < k)).image (rankIn S key)).card :=
        (Finset.card_image_of_injOn ((rankIn_injOn hkey).mono (Finset.filter_subset _ _))).symm
    _ = ((Finset.range S.card).filter (· < k)).card := by rw [← image_rankIn hkey, Finset.filter_image]
    _ = (Finset.range k).card := congrArg Finset.card (Finset.ext fun x => by
        simp only [Finset.mem_filter, Finset.mem_range]
        omega)
    _ = k := Finset.card_range k

end

/-! ### The largest-remainder rule (R39) -/

/-- A station's place in the order of R39 as one number: a larger remainder, or an equal one and a lower port, is a
larger key. -/
def Shares.key (x : Shares) (i : StationId) : Nat := x.remainder i * 10 + (9 - i.val)

namespace Shares

theorem ranksBefore_iff (x : Shares) (j i : StationId) : x.ranksBefore j i = true ↔ x.key i < x.key j := by
  simp only [ranksBefore, key, Bool.or_eq_true, Bool.and_eq_true, decide_eq_true_eq, beq_iff_eq]
  omega

theorem key_injective (x : Shares) : Function.Injective x.key := fun i j h => by
  simp only [key] at h
  exact Fin.ext (by omega)

theorem rank_eq_rankIn (x : Shares) (mask : StationId → Bool) (i : StationId) :
    x.rank mask i = rankIn (maskSet mask) x.key i := by
  rw [rankIn, Finset.card_filter, ← sumStations_mask, rank]
  simp only [Bool.and_eq_true, ranksBefore_iff, ite_and]

section
variable {x : Shares} {mask : StationId → Bool}

/-- The numerators of the mask sum to the total to divide, and there is something to divide by: what R37 and R38 make of
the shares wherever R39 is applied. -/
structure Exact (x : Shares) (mask : StationId → Bool) : Prop where
  pos : 0 < x.divisor
  sum : ∑ i ∈ maskSet mask, x.numerator i = x.total * x.divisor

/-- Floors and remainders make up the numerators. -/
theorem floor_mul_add_remainder (x : Shares) (i : StationId) :
    x.floor i * x.divisor + x.remainder i = x.numerator i := Nat.div_add_mod' _ _

theorem Exact.sum_parts (h : x.Exact mask) :
    (∑ i ∈ maskSet mask, x.floor i) * x.divisor + ∑ i ∈ maskSet mask, x.remainder i = x.total * x.divisor := by
  rw [← h.sum, Finset.sum_mul, ← Finset.sum_add_distrib]
  exact Finset.sum_congr rfl fun i _ => x.floor_mul_add_remainder i

theorem Exact.floors_add_leftover (h : x.Exact mask) :
    ∑ i ∈ maskSet mask, x.floor i + x.leftover mask = x.total := by
  have floors : ∑ i ∈ maskSet mask, x.floor i ≤ x.total :=
    Nat.le_of_mul_le_mul_right (by have := h.sum_parts; omega) h.pos
  rw [leftover, sumStations_mask]
  omega

theorem Exact.leftover_mul_divisor (h : x.Exact mask) :
    x.leftover mask * x.divisor = ∑ i ∈ maskSet mask, x.remainder i := by
  have parts := h.sum_parts
  rw [← h.floors_add_leftover, Nat.add_mul] at parts
  omega

/-- The leftover is at most the number of stations with a remainder, since every remainder is below the divisor. -/
theorem Exact.leftover_le_card (h : x.Exact mask) :
    x.leftover mask ≤ ((maskSet mask).filter fun i => 0 < x.remainder i).card := by
  refine Nat.le_of_mul_le_mul_right ?_ h.pos
  calc x.leftover mask * x.divisor
      = ∑ i ∈ maskSet mask, x.remainder i := h.leftover_mul_divisor
    _ = ∑ i ∈ (maskSet mask).filter fun i => 0 < x.remainder i, x.remainder i :=
        (Finset.sum_filter_of_ne fun _ _ => Nat.pos_of_ne_zero).symm
    _ ≤ _ := Finset.sum_le_card_nsmul _ _ _ fun i _ => (Nat.mod_lt _ h.pos).le

/-- A station without a remainder ranks behind every station with one, so none of the leftover reaches it. -/
theorem Exact.leftover_le_rank (h : x.Exact mask) {i : StationId} (hi : x.remainder i = 0) :
    x.leftover mask ≤ x.rank mask i := by
  refine h.leftover_le_card.trans ?_
  rw [rank_eq_rankIn]
  refine Finset.card_le_card (Finset.monotone_filter_right _ fun j _ hj => ?_)
  simp only [key, hi]
  omega

/-- The kilowatts that R39 adds are the leftover. -/
theorem Exact.sum_bonus (h : x.Exact mask) :
    (∑ i ∈ maskSet mask, if x.rank mask i < x.leftover mask then 1 else 0) = x.leftover mask := by
  simp only [← Finset.card_filter, rank_eq_rankIn]
  exact card_filter_rankIn_lt x.key_injective.injOn (h.leftover_le_card.trans (Finset.card_filter_le _ _))

theorem Exact.offer_eq (h : x.Exact mask) (i : StationId) :
    x.offer mask i = x.kept i + x.floor i + (if x.rank mask i < x.leftover mask then 1 else 0) := if_neg h.pos.ne'

/-- The offers are what the stations keep and the total that is divided. -/
theorem Exact.sum_offer (h : x.Exact mask) :
    ∑ i ∈ maskSet mask, x.offer mask i = ∑ i ∈ maskSet mask, x.kept i + x.total := by
  simp only [h.offer_eq, Finset.sum_add_distrib, h.sum_bonus]
  rw [Nat.add_assoc, h.floors_add_leftover]

theorem Exact.kept_le_offer (h : x.Exact mask) (i : StationId) : x.kept i ≤ x.offer mask i := by
  rw [h.offer_eq]
  omega

/-- An exact share of at most `c` gives at most `c`: only a share that is not whole is rounded up. -/
theorem Exact.offer_le (h : x.Exact mask) {i : StationId} {c : Nat} (hc : x.numerator i ≤ x.divisor * c) :
    x.offer mask i ≤ x.kept i + c := by
  rw [Nat.mul_comm] at hc
  have parts := x.floor_mul_add_remainder i
  rw [h.offer_eq]
  rcases Nat.eq_zero_or_pos (x.remainder i) with whole | broken
  · have floor : x.floor i ≤ c := Nat.le_of_mul_le_mul_right (by omega) h.pos
    have unrounded := h.leftover_le_rank whole
    rw [if_neg (by omega)]
    omega
  · have floor : x.floor i < c := Nat.lt_of_mul_lt_mul_right (a := x.divisor) (by omega)
    split <;> omega

end
end Shares

/-! ### The offers of a run -/

section
variable {stations : Vector StationSnap 10} {a : Nat}

theorem look_offersOf (stations : Vector StationSnap 10) (a fc : Nat) (i : StationId) :
    look (offersOf stations a fc) i =
      if onlineIn stations i then (sharesOf stations a fc).offer (onlineIn stations) i else 0 := by
  simp only [offersOf, look_tabulate]

theorem forecastOnline_eq_sum (stations : Vector StationSnap 10) :
    forecastOnline stations = ∑ i ∈ maskSet (onlineIn stations), (look stations i).avail := sumStations_mask _ _

theorem spareSum_eq_sum (stations : Vector StationSnap 10) :
    spareSum stations = ∑ i ∈ maskSet (onlineIn stations), spareOf stations i := sumStations_mask _ _

/-- The ratings of the mask are its forecast and its spares. -/
theorem forecastOnline_add_spareSum (h : ∀ i, (look stations i).avail ≤ (look stations i).rating) :
    forecastOnline stations + spareSum stations = ratingSum stations := by
  rw [forecastOnline_eq_sum, spareSum_eq_sum, ← Finset.sum_add_distrib, ratingSum, sumStations_mask]
  exact Finset.sum_congr rfl fun i _ => Nat.add_sub_cancel' (h i)

theorem sharesOf_curtailing {fc : Nat} (h : a < fc) : sharesOf stations a fc =
    { kept := fun _ => 0, numerator := fun i => a * (look stations i).avail, divisor := fc, total := a } := if_pos h

theorem sharesOf_headroom {fc : Nat} (h : fc ≤ a) : sharesOf stations a fc =
    { kept := fun i => (look stations i).avail, numerator := fun i => (a - fc) * spareOf stations i,
      divisor := spareSum stations, total := a - fc } := if_neg (Nat.not_lt_of_le h)

theorem exact_curtailing (h : a < forecastOnline stations) :
    (sharesOf stations a (forecastOnline stations)).Exact (onlineIn stations) := by
  rw [sharesOf_curtailing h]
  exact ⟨Nat.zero_lt_of_lt h, by rw [← Finset.mul_sum, ← forecastOnline_eq_sum]⟩

theorem exact_headroom (h : forecastOnline stations ≤ a) (hs : 0 < spareSum stations) :
    (sharesOf stations a (forecastOnline stations)).Exact (onlineIn stations) := by
  rw [sharesOf_headroom h]
  exact ⟨hs, by rw [← Finset.mul_sum, ← spareSum_eq_sum]⟩

/-- Without spare rating the stations keep their available power (R38). -/
theorem offer_of_no_spare (h : forecastOnline stations ≤ a) (hs : spareSum stations = 0) (i : StationId) :
    (sharesOf stations a (forecastOnline stations)).offer (onlineIn stations) i = (look stations i).avail := by
  rw [sharesOf_headroom h]
  exact if_pos hs

/-- In the curtailing case no offer is above the available power (R37). -/
theorem offer_le_avail (h : a < forecastOnline stations) (i : StationId) :
    (sharesOf stations a (forecastOnline stations)).offer (onlineIn stations) i ≤ (look stations i).avail := by
  have bound := (exact_curtailing h).offer_le (i := i) (c := (look stations i).avail)
  simp only [sharesOf_curtailing h, Nat.zero_add] at bound ⊢
  exact bound (Nat.mul_le_mul_right _ h.le)

/-- In the headroom case no offer is below the available power (R38). -/
theorem avail_le_offer (h : forecastOnline stations ≤ a) (i : StationId) :
    (look stations i).avail ≤ (sharesOf stations a (forecastOnline stations)).offer (onlineIn stations) i := by
  rcases Nat.eq_zero_or_pos (spareSum stations) with none | some
  · exact (offer_of_no_spare h none i).ge
  · have bound := (exact_headroom h some).kept_le_offer i
    simp only [sharesOf_headroom h] at bound ⊢
    exact bound

/-- Every offer is within the rating as long as the allowance is within the ratings (R40). -/
theorem offer_le_rating (h : ∀ i, (look stations i).avail ≤ (look stations i).rating) (ha : a ≤ ratingSum stations)
    (i : StationId) :
    (sharesOf stations a (forecastOnline stations)).offer (onlineIn stations) i ≤ (look stations i).rating := by
  rcases Nat.lt_or_ge a (forecastOnline stations) with curtailing | headroom
  · exact (offer_le_avail curtailing i).trans (h i)
  · rcases Nat.eq_zero_or_pos (spareSum stations) with none | some
    · exact (offer_of_no_spare headroom none i).trans_le (h i)
    · have extra : a - forecastOnline stations ≤ spareSum stations := by
        rw [← forecastOnline_add_spareSum h] at ha
        omega
      have bound := (exact_headroom headroom some).offer_le (i := i) (c := spareOf stations i)
      simp only [sharesOf_headroom headroom] at bound ⊢
      rw [← Nat.add_sub_cancel' (h i)]
      exact bound (Nat.mul_le_mul_right _ extra)

/-- The offers of the mask sum exactly to an allowance within the ratings (R40). -/
theorem sum_offer (h : ∀ i, (look stations i).avail ≤ (look stations i).rating) (ha : a ≤ ratingSum stations) :
    ∑ i ∈ maskSet (onlineIn stations),
      (sharesOf stations a (forecastOnline stations)).offer (onlineIn stations) i = a := by
  rcases Nat.lt_or_ge a (forecastOnline stations) with curtailing | headroom
  · rw [(exact_curtailing curtailing).sum_offer, sharesOf_curtailing curtailing]
    simp only [Finset.sum_const_zero, Nat.zero_add]
  · rcases Nat.eq_zero_or_pos (spareSum stations) with none | some
    · simp only [offer_of_no_spare headroom none, ← forecastOnline_eq_sum]
      rw [← forecastOnline_add_spareSum h] at ha
      omega
    · rw [(exact_headroom headroom some).sum_offer, sharesOf_headroom headroom]
      simp only [← forecastOnline_eq_sum]
      omega

end

/-! ### The record of a run -/

theorem look_recordOf_mask (run : RunInputs) (sample : Sample) (q : Extrema) (i : StationId) :
    look (recordOf run sample q).mask i = onlineIn run.stations i := look_tabulate _ _

theorem look_recordOf_offers (run : RunInputs) (sample : Sample) (q : Extrema) (i : StationId) :
    look (recordOf run sample q).offers i =
      if onlineIn run.stations i then
        (sharesOf run.stations (recordOf run sample q).allowance (forecastOnline run.stations)).offer
          (onlineIn run.stations) i
      else 0 := look_offersOf _ _ _ _

theorem recordOf_fc (run : RunInputs) (sample : Sample) (q : Extrema) :
    (recordOf run sample q).fc = forecastOnline run.stations := rfl

theorem recordOf_allowance_le (run : RunInputs) (sample : Sample) (q : Extrema) :
    (recordOf run sample q).allowance ≤ ratingSum run.stations := decide78_allowance_le _ _ _ _ _ _ _ _

/-- Settles O47: the allowance of a run is within the ratings (R35), so the offers of its three cases — curtailing,
headroom, no spare rating — sum to it (`sum_offer`) and keep their bounds. -/
theorem offersSumToAllowance : Obligations.OffersSumToAllowance := by
  refine ⟨fun run sample q h => ?_, rfl, fun i => ⟨look_replicate _ _, look_replicate _ _⟩⟩
  have ha := recordOf_allowance_le run sample q
  simp only [look_recordOf_mask, look_recordOf_offers, recordOf_fc]
  refine ⟨fun i => onlineIn_iff, ?_, ha, fun i => ?_, fun i hi => ?_, fun i hi less => ?_, fun i hi atLeast => ?_⟩
  · rw [sumStations_mask, Finset.sum_congr rfl fun i hi => if_pos (mem_maskSet.1 hi)]
    exact sum_offer h ha
  · split
    · exact offer_le_rating h ha i
    · exact Nat.zero_le _
  · rw [hi]
    rfl
  · rw [if_pos hi]
    exact offer_le_avail less i
  · rw [if_pos hi]
    exact avail_le_offer atLeast i

end Sys2Proof.Machine

/-! PROOFS. The station table: the requests JOIN and ENTRY-READ, and the write of STATION_RATING. -/

namespace Sys2Proof.Machine

/-! ### Requests that may change the pending sets -/

/-- `exec_of_answer` for a service that changes the router: what counts is that no new entry waits for the event's
end. -/
theorem exec_of_settled_answer {s u : State} {c : Instr} {p : Port} {r : Request} {x : Reply} (h : s.Serves p)
    (hc : requestOf c = some (p, r)) (hr : r.body ≠ .engHalt) (hb : serveBody s.nextEvent p r = answered (u, x))
    (hl : u.lastClear = none) (hu : ∀ q, (look u.router.sets q).fresh = []) :
    exec c s = .next (u.replyOn p r.body.kind r.tag x.code x.payload) := by
  rw [exec_of_requestOf hc, request_of_settled_answer h hr hb hl hu]

/-- An end report leaves a settled router settled. -/
theorem conditionEnded_settled {x : Router} (h : ∀ q, (look x.sets q).fresh = []) (k : CauseKind) (i : StationId)
    (q : Port) : (look (x.conditionEnded k i).sets q).fresh = [] := by
  simp only [Router.conditionEnded, look_tabulate, h, List.filter_nil]

/-- A change of raise-ready leaves a settled router settled. -/
theorem readyChange_settled {x : Router} (h : ∀ q, (look x.sets q).fresh = []) (i : StationId) (before after : Bool)
    (q : Port) : (look (x.readyChange i before after).sets q).fresh = [] := by
  unfold Router.readyChange
  split
  · simp only [Router.settle, look_tabulate, PendingSet.settle]
  · split
    · exact conditionEnded_settled h _ _ q
    · exact h q

/-! ### One entry -/

/-- A change of a station counts only by what it makes of the entry that stands there. -/
theorem updStation_congr {s : State} {i : StationId} {f g : Station → Station} (h : f (s.station i) = g (s.station i)) :
    s.updStation i f = s.updStation i g := by
  rw [State.updStation, h, State.updStation]

/-- Only an ONLINE entry is ready to raise (R88). -/
theorem readyCondition_of_not_online {s : State} {i : StationId} (h : (s.station i).state ≠ .online) :
    s.readyCondition i = false := by
  simp only [State.readyCondition, beq_eq_false_iff_ne.2 h, Bool.false_and]

/-- Where the condition of R88 fails, raise-ready becomes or stays clear. -/
theorem evalReady_of_condition_false {s : State} {i : StationId} (h : s.readyCondition i = false) :
    s.evalReady i = (s.updStation i fun e => { e with ready := false }).setRouter
      (s.router.readyChange i (s.station i).ready false) := by
  cases ready : (s.station i).ready with
  | true => simp only [State.evalReady, h, ready, Bool.false_eq_true, if_false, if_true]; rfl
  | false =>
    have same : s.updStation i (fun e => { e with ready := false }) = s :=
      (updStation_congr (by rw [← ready])).trans (updStation_self s i)
    simp only [State.evalReady, h, ready, same, Bool.false_eq_true, if_false]
    rfl

/-- A change of state of an entry that is neither ONLINE nor STALE, to one that is not ONLINE, gives no notice but that
of raise-ready (R52). -/
theorem setEntryState_of_offline {s : State} {i : StationId} {new : StationState}
    (changed : (s.station i).state ≠ new) (online : (s.station i).state ≠ .online)
    (stale : (s.station i).state ≠ .stale) (offline : new ≠ .online) :
    s.setEntryState i new = (s.updStation i fun e => { e with state := new, ready := false }).setRouter
      (s.router.readyChange i (s.station i).ready false) := by
  have unready : (s.updStation i fun e => { e with state := new }).readyCondition i = false :=
    readyCondition_of_not_online (by rwa [station_updStation, if_pos rfl])
  simp only [State.setEntryState, changed, online, stale, if_false, evalReady_of_condition_false unready,
    updStation_updStation, station_updStation, if_true, updStation_router]

/-! ### JOIN -/

/-- An entry enters JOINING, or FAULTED by R51, and no other state. -/
theorem joinState_ne {e : Station} {x : StationState} (j : x ≠ .joining) (f : x ≠ .faulted) : e.joinState ≠ x := by
  unfold Station.joinState
  split
  · exact j.symm
  · exact f.symm

/-- An ABSENT entry enters JOINING, or FAULTED, with no notice but that of raise-ready. -/
theorem enterJoining_of_absent {s : State} {i : StationId} (h : (s.station i).state = .absent) :
    s.enterJoining i =
      (s.updStation i fun e => { e with state := (s.station i).joinState, ready := false }).setRouter
        (s.router.readyChange i (s.station i).ready false) :=
  setEntryState_of_offline (h ▸ (joinState_ne (by decide) (by decide)).symm) (h ▸ by decide) (h ▸ by decide)
    (joinState_ne (by decide) (by decide))

theorem serveJoin_of_unrated {s : State} {i : StationId} (h : (s.station i).state = .absent)
    (hr : (s.station i).rating = 0) : serveJoin s i = (s, refuse .refusedState) := by
  simp only [serveJoin, h, hr, if_true]

theorem serveJoin_of_rated {s : State} {i : StationId} (h : (s.station i).state = .absent)
    (hr : 0 < (s.station i).rating) :
    serveJoin s i =
      ((s.updStation i fun e => { e with state := (s.station i).joinState, age := 0, ready := false }).setRouter
          (s.router.readyChange i (s.station i).ready false),
        { code := .ok
          payload := f8 (s.station i).joinState.code ++ f16 (s.station i).rating ++ (0 : BitVec 40) }) := by
  have here : (s.updStation i fun e => { e with age := 0 }).station i = { s.station i with age := 0 } := by
    rw [station_updStation, if_pos rfl]
  have entered := enterJoining_of_absent (s := s.updStation i fun e => { e with age := 0 }) (i := i) (by rw [here, h])
  rw [here, updStation_updStation, updStation_router] at entered
  simp only [serveJoin, h, hr.ne', if_true, if_false, entered, station_setRouter, station_updStation]
  rfl

theorem serveJoin_of_joined {s : State} {i : StationId} (h : (s.station i).state ≠ .absent) :
    serveJoin s i =
      (s, { code := .ok
            payload := f8 (s.station i).state.code ++ f16 (s.station i).rating ++ (0 : BitVec 40) }) := by
  simp only [serveJoin, h, if_false]

/-- What the service of JOIN on a station port leaves is what the command leaves, with its answer. -/
theorem exec_join_station {s u : State} {i : StationId} {tag : Byte} {x : Reply} (h : s.Serves (stationPort i))
    (hj : serveJoin s.nextEvent i = (u, x)) (hu : ∀ q, (look u.router.sets q).fresh = []) :
    exec (.join (stationPort i) tag) s = .next (u.replyOn (stationPort i) 1 tag x.code x.payload) := by
  have hf := serveJoin_frame s.nextEvent i
  rw [hj] at hf
  obtain ⟨-, -, -, -, -, -, -, -, lastClear, -⟩ := hf
  have hb : serveBody s.nextEvent (stationPort i) { tag := tag, body := .join } = answered (u, x) := by
    simp only [serveBody, roleOf_stationPort, hj]
  exact exec_of_settled_answer h rfl (by simp) hb lastClear hu

/-- What the service of JOIN on the storage port leaves is what the command leaves. -/
theorem exec_join_storage {s u : State} {tag : Byte} {x : Reply} (h : s.Listening storagePort)
    (hj : serveStorageJoin s.nextEvent = (u, x)) (hu : u.router = s.router) :
    exec (.join storagePort tag) s = .next (u.replyOn storagePort 1 tag x.code x.payload) := by
  have hf := serveStorageJoin_frame s.nextEvent
  rw [hj] at hf
  obtain ⟨-, -, -, -, -, -, -, -, -, lastClear, -⟩ := hf
  exact exec_of_answer (r := { tag := tag, body := .join }) (serves_storage h) rfl (by simp) (congrArg answered hj)
    lastClear hu

/-- Settles O11: the branches of `serveJoin` and of `serveStorageJoin`; an ABSENT entry is neither ONLINE nor STALE, so
its change of state touches nothing but raise-ready (`setEntryState_of_offline`). -/
theorem joinEntersJoining : Obligations.JoinEntersJoining := by
  refine ⟨fun s i tag h => ⟨fun absent unrated => ?_, fun absent rated => ?_, fun joined => ?_⟩,
    fun s tag h => ⟨fun absent => ?_, fun joined => ?_⟩⟩
  · exact exec_join_station h (serveJoin_of_unrated (s := s.nextEvent) absent unrated) h.listening.quiet.settled
  · exact exec_join_station h (serveJoin_of_rated (s := s.nextEvent) absent rated)
      (readyChange_settled h.listening.quiet.settled _ _ _)
  · exact exec_join_station h (serveJoin_of_joined (s := s.nextEvent) joined) h.listening.quiet.settled
  · exact exec_join_storage h (if_pos absent) rfl
  · exact exec_join_storage h (if_neg joined) rfl

/-! ### PARAM-SET of STATION_RATING -/

theorem index?_of_eq {n x : Nat} {i : Fin n} (h : x = i.val) : index? n x = some i := by
  subst h
  exact index?_of_lt i.isLt

theorem writeRating_of_parked {e : Station} (h : e.state = .parked) (r : Nat) :
    e.writeRating r =
      { e with
        rating := r, applied := min e.applied r, park := e.park.map fun c => min c r, avail := min e.avail r } := by
  have swap : min r = fun c => min c r := funext fun c => Nat.min_comm r c
  rw [Station.writeRating, if_pos h, swap]

theorem writeRating_of_not_parked {e : Station} (h : e.state ≠ .parked) (r : Nat) :
    e.writeRating r = { e with rating := r } := if_neg h

theorem writeRating_rating (e : Station) (r : Nat) : (e.writeRating r).rating = r := by
  unfold Station.writeRating
  split <;> rfl

/-- An index beyond the parameter's entries (R175). -/
theorem serveParamSet_of_range {s : State} {id index : Byte} {n : Nat} (hn : paramCount id.toNat = some n)
    (hi : n ≤ index.toNat) (v : BitVec 32) : serveParamSet s id index v = (s, refuse .refusedRange) := by
  simp only [serveParamSet, hn, hi, if_true]

/-- A write in an entry state that R65 does not name. -/
theorem serveParamSet_of_unwritable {s : State} {index : Byte} (hi : index.toNat < 10)
    (hw : ratingWritable s index.toNat = false) (v : BitVec 32) :
    serveParamSet s 17 index v = (s, refuse .refusedState) := by
  have count : paramCount (17 : Byte).toNat = some 10 := rfl
  have anyRun : paramHaltedOnly (17 : Byte).toNat = false := rfl
  simp only [serveParamSet, count, anyRun, hw, Nat.not_le.2 hi, if_false, Bool.false_and, Bool.false_eq_true]
  rfl

/-- A write that passes the tests of R175: the store, and the stored value in the answer (R176). -/
theorem serveParamSet_of_accepted {s t : State} {id index : Byte} {v : BitVec 32} {n stored : Nat}
    (hn : paramCount id.toNat = some n) (hi : index.toNat < n)
    (hh : (paramHaltedOnly id.toNat && !s.halted) = false)
    (hw : (decide (id.toNat = 17) && !ratingWritable s index.toNat) = false)
    (ht : storeParam s id.toNat index.toNat v = t) (hs : getParam t id.toNat index.toNat = stored) :
    serveParamSet s id index v =
      (t, { code := if stored = v.toNat then .ok else .okClamped, payload := paramPayload id index stored }) := by
  simp only [serveParamSet, hn, hh, hw, ht, hs, Nat.not_le.2 hi, if_false, Bool.false_eq_true]

/-- R65: the two states in which a rating is written. -/
theorem ratingWritable_iff {s : State} {index : Nat} {i : StationId} (h : index = i.val) :
    ratingWritable s index = true ↔ (s.station i).state = .absent ∨ (s.station i).state = .parked := by
  simp only [ratingWritable, index?_of_eq h, Bool.or_eq_true, beq_iff_eq]

theorem storeParam_rating (s : State) {index : Nat} {i : StationId} (h : index = i.val) (v : BitVec 32) :
    storeParam s 17 index v = s.updStation i fun e => e.writeRating (min 65535 v.toNat) := by
  simp only [storeParam, index?_of_eq h, nearest, Nat.zero_max]

theorem getParam_rating (s : State) {index : Nat} {i : StationId} (h : index = i.val) :
    getParam s 17 index = (s.station i).rating := by
  simp only [getParam, index?_of_eq h, Option.map_some, Option.getD_some]

/-- What the service of a write of STATION_RATING leaves is what the command leaves. -/
theorem exec_stationRating {s u : State} {tag index : Byte} {v : BitVec 32} {x : Reply}
    (h : s.Listening supervisorPort) (hx : serveParamSet s.nextEvent 17 index v = (u, x)) (hu : u.router = s.router) :
    exec (.stationRating supervisorPort tag index v) s =
      .next (u.replyOn supervisorPort 16 tag x.code x.payload) := by
  have hf := serveParamSet_frame s.nextEvent 17 index v
  rw [hx] at hf
  obtain ⟨-, -, -, -, -, -, lastClear, -⟩ := hf
  exact exec_of_answer (r := { tag := tag, body := .paramSet 17 index v }) (serves_supervisor h) rfl (by simp)
    ((supervisorOnly_supervisorPort _ _).trans (congrArg answered hx)) lastClear hu

/-- A write of STATION_RATING that R65 accepts, where `f` says what it makes of the entry that stands there. -/
theorem exec_stationRating_stored {s : State} {tag index : Byte} {v : BitVec 32} {i : StationId}
    (h : s.Listening supervisorPort) (hi : index.toNat = i.val)
    (hw : (s.station i).state = .absent ∨ (s.station i).state = .parked) {f : Station → Station}
    (hf : (s.station i).writeRating (min 65535 v.toNat) = f (s.station i)) :
    exec (.stationRating supervisorPort tag index v) s =
      .next ((s.updStation i f).replyOn supervisorPort 16 tag
        (if min 65535 v.toNat = v.toNat then .ok else .okClamped) (paramPayload 17 index (min 65535 v.toNat))) := by
  have store : storeParam s.nextEvent 17 index.toNat v = s.nextEvent.updStation i f :=
    (storeParam_rating _ hi v).trans (updStation_congr (f := fun e => e.writeRating _) hf)
  have read : getParam (s.nextEvent.updStation i f) 17 index.toNat = min 65535 v.toNat := by
    rw [getParam_rating _ hi, station_updStation, if_pos rfl]
    exact (congrArg Station.rating hf).symm.trans (writeRating_rating _ _)
  have writable : ratingWritable s.nextEvent index.toNat = true := (ratingWritable_iff (s := s.nextEvent) hi).2 hw
  exact exec_stationRating h
    (serveParamSet_of_accepted (n := 10) rfl (by omega) rfl (by rw [writable]; rfl) store read) rfl

/-- Settles O28: the entry's state decides whether the rating is written (`ratingWritable_iff`) and what comes down with
it (`Station.writeRating`). -/
theorem stationRatingWrites : Obligations.StationRatingWrites := by
  refine fun s tag index v h => ⟨fun i hi absent => ?_, fun i hi parked => ?_, fun i hi present unparked => ?_,
    fun hi => ?_⟩
  · exact exec_stationRating_stored h hi (.inl absent) (writeRating_of_not_parked (absent ▸ by decide) _)
  · exact exec_stationRating_stored h hi (.inr parked) (writeRating_of_parked parked _)
  · have unwritable : ratingWritable s.nextEvent index.toNat = false :=
      Bool.eq_false_iff.2 (mt (ratingWritable_iff (s := s.nextEvent) hi).1 (not_or.2 ⟨present, unparked⟩))
    exact exec_stationRating h (serveParamSet_of_unwritable (by omega) unwritable v) rfl
  · exact exec_stationRating h (serveParamSet_of_range (n := 10) rfl hi v) rfl

/-! ### ENTRY-READ -/

/-- Page 1: the flags of the park ceiling, the interlock and raise-ready are bits 0 to 2. -/
theorem stationPage_one (e : Station) :
    e.page 1 = some (f16 e.applied ++ f16 (e.park.getD 0) ++
      f8 ((if e.park.isSome then 1 else 0) + (if e.interlock.isSome then 2 else 0) + (if e.ready then 4 else 0)) ++
      0#24) := by
  simp only [Station.page, flagAt_eq]
  rfl

/-- Page 3: the holding set is the low half of its byte. -/
theorem stationPage_three (e : Station) :
    e.page 3 =
      some (e.statuses ++ (0#4 ++ e.holding) ++ f8 e.overshootRun ++ f8 e.staleDuration ++ 0#32) := by
  have byte : e.holding.zeroExtend 8 = 0#4 ++ e.holding := BitVec.setWidth_eq_append (by decide)
  rw [← byte]
  rfl

/-- Page 0 of the storage record: the sign of meas is bit 7 of the first byte. -/
theorem storagePage_zero (s : State) :
    storagePage s 0 =
      some (f8 (s.storage.state.code + (if s.storage.meas < 0 then 128 else 0)) ++ f8 s.storage.age ++
        f16 s.storage.meas.natAbs ++ f16 s.storage.bdis ++ f16 s.storage.bchg) := by
  simp only [storagePage, flagAt_eq, decide_eq_true_eq]
  rfl

/-- Page 1 of the storage record carries the effective limits of the live record (R28). -/
theorem storagePage_one (s : State) :
    storagePage s 1 =
      some (f16 s.storage.soc ++
        f16 (if (s.storage.state == .online) = true ∧ s.params.socMin < s.storage.soc then s.storage.bdis else 0) ++
        f16 (if (s.storage.state == .online) = true ∧ s.storage.soc < s.params.socMax then s.storage.bchg else 0) ++
        f8 (if s.storage.held.isSome then 1 else 0) ++ 0#8) := by
  simp only [storagePage, effectiveLimits_eq, flagAt_eq]
  rfl

theorem storagePage_above_last (s : State) {page : Nat} (h : 1 < page) : storagePage s page = none := by
  obtain ⟨n, rfl⟩ := Nat.exists_eq_add_of_le' (show 2 ≤ page from h)
  rfl

theorem serveEntryReadSupervisor_of_station {s : State} {number : Byte} {i : StationId} (h : number.toNat = i.val)
    (page : Byte) : serveEntryReadSupervisor s number page = pageReply s ((s.station i).page page.toNat) := by
  simp only [serveEntryReadSupervisor, index?_of_eq h]

theorem serveEntryReadSupervisor_of_storage {s : State} {number : Byte} (h : number.toNat = 10) (page : Byte) :
    serveEntryReadSupervisor s number page = pageReply s (storagePage s page.toNat) := by
  simp only [serveEntryReadSupervisor, index?_of_le (Nat.le_of_eq h.symm), if_pos h]

theorem serveEntryReadSupervisor_refused {s : State} {number : Byte} (h : 10 < number.toNat) (page : Byte) :
    serveEntryReadSupervisor s number page = pageReply s none := by
  simp only [serveEntryReadSupervisor, index?_of_le h.le, h.ne', if_false, pageReply]

/-- What ENTRY-READ answers where its service looks for a page: the page, or REFUSED(RANGE). -/
theorem exec_entryRead {s : State} {p : Port} {tag number n : Byte} {page : Option (BitVec 64)} (h : s.Serves p)
    (hp : serveBody s.nextEvent p { tag := tag, body := .entryRead number n } =
      answered (pageReply s.nextEvent page)) :
    exec (.entryRead p tag number n) s =
      .next (page.elim (s.replyOn p 8 tag .refusedRange 0) (s.replyOn p 8 tag .ok)) := by
  cases page <;> exact exec_of_answer h rfl (by simp) hp rfl rfl

/-- ENTRY-READ on a station port reads the port's own station, whatever the number (R67). -/
theorem exec_entryRead_station {s : State} {i : StationId} {tag number n : Byte} (h : s.Serves (stationPort i)) :
    exec (.entryRead (stationPort i) tag number n) s =
      .next (((s.station i).page n.toNat).elim (s.replyOn (stationPort i) 8 tag .refusedRange 0)
        (s.replyOn (stationPort i) 8 tag .ok)) :=
  exec_entryRead h (by simp only [serveBody, roleOf_stationPort]; rfl)

/-- ENTRY-READ of a station on the supervisor port. -/
theorem exec_entryRead_numbered {s : State} {i : StationId} {tag number n : Byte} (h : s.Listening supervisorPort)
    (hn : number.toNat = i.val) :
    exec (.entryRead supervisorPort tag number n) s =
      .next (((s.station i).page n.toNat).elim (s.replyOn supervisorPort 8 tag .refusedRange 0)
        (s.replyOn supervisorPort 8 tag .ok)) :=
  exec_entryRead (serves_supervisor h)
    (congrArg answered (serveEntryReadSupervisor_of_station (s := s.nextEvent) hn n))

/-- ENTRY-READ of the storage record. -/
theorem exec_entryRead_storage {s : State} {tag number n : Byte} (h : s.Listening supervisorPort)
    (hn : number.toNat = 10) :
    exec (.entryRead supervisorPort tag number n) s =
      .next ((storagePage s n.toNat).elim (s.replyOn supervisorPort 8 tag .refusedRange 0)
        (s.replyOn supervisorPort 8 tag .ok)) :=
  exec_entryRead (serves_supervisor h)
    (congrArg answered (serveEntryReadSupervisor_of_storage (s := s.nextEvent) hn n))

/-- ENTRY-READ of a number that names no entry. -/
theorem exec_entryRead_refused {s : State} {tag number n : Byte} (h : s.Listening supervisorPort)
    (hn : 10 < number.toNat) :
    exec (.entryRead supervisorPort tag number n) s = .next (s.replyOn supervisorPort 8 tag .refusedRange 0) :=
  exec_entryRead (page := none) (serves_supervisor h)
    (congrArg answered (serveEntryReadSupervisor_refused hn n))

/-- Settles O21: the pages are the branches of `Station.page` and `storagePage`, and the port's role and the number name
the entry. -/
theorem entryReadReturnsPages : Obligations.EntryReadReturnsPages := by
  refine ⟨?_, fun s tag number n h => ⟨fun hn hp => ?_, fun hn hp => ?_, fun outside => ?_⟩⟩
  · intro page
    have pages : ∀ (e : Station) (n : Nat), page e n = e.page n := by
      rintro e (_ | _ | _ | _ | n)
      · rfl
      · exact (stationPage_one e).symm
      · exact congrArg some (by cases e.interlock <;> rfl)
      · exact (stationPage_three e).symm
      · rfl
    refine ⟨fun s i tag number n h => ?_, fun s i tag number n h hn => ?_⟩
    · rw [pages, exec_entryRead_station h]
      cases (s.station i).page n.toNat <;> rfl
    · rw [pages, exec_entryRead_numbered h hn]
      cases (s.station i).page n.toNat <;> rfl
  · rw [exec_entryRead_storage h hn, hp, storagePage_zero]
    rfl
  · rw [exec_entryRead_storage h hn, hp, storagePage_one]
    rfl
  · rcases outside with hn | ⟨hn, hp⟩
    · exact exec_entryRead_refused h hn
    · rw [exec_entryRead_storage h hn, storagePage_above_last s hp]
      rfl

end Sys2Proof.Machine

/-! PROOFS. The grants of CEIL-TAKE: what a source event and a change of raise-ready make of the pending sets, the grant
from the record, the interlock it opens and the pool behind it. -/

namespace Sys2Proof.Machine

/-! ### The entries outside the pairs an event touches -/

/-- Two routers with one routing table whose pending sets, new entries included, hold the same entries in the same order
but for the pairs that `may` names: `Router.DiffersOnly` within an event. -/
structure Router.AgreesOff (x y : Router) (may : CauseKind → StationId → Bool) : Prop where
  routes : y.routes = x.routes
  others : ∀ p, (look y.sets p).all.filter (fun e => !may e.kind e.inst) =
    (look x.sets p).all.filter (fun e => !may e.kind e.inst)

section
variable {x y z : Router} {may : CauseKind → StationId → Bool} {k : CauseKind} {i : StationId}

theorem Router.AgreesOff.refl (x : Router) (may : CauseKind → StationId → Bool) : x.AgreesOff x may :=
  ⟨rfl, fun _ => rfl⟩

theorem Router.AgreesOff.trans (h : x.AgreesOff y may) (g : y.AgreesOff z may) : x.AgreesOff z may :=
  ⟨g.routes.trans h.routes, fun p => (g.others p).trans (h.others p)⟩

/-- Between events the sets hold no new entries, and the two notions are one. -/
theorem Router.AgreesOff.differsOnly (h : x.AgreesOff y may) (hx : ∀ p, (look x.sets p).fresh = [])
    (hy : ∀ p, (look y.sets p).fresh = []) : x.DiffersOnly y may :=
  ⟨h.routes, fun p => by simpa only [PendingSet.all, hx p, hy p, List.append_nil] using h.others p⟩

theorem filter_insertFresh_of_not {keep : PendingEntry → Bool} {e : PendingEntry} (h : keep e = false)
    (es : List PendingEntry) : (insertFresh e es).filter keep = es.filter keep := by
  induction es with
  | nil => simp only [insertFresh, List.filter_cons, h, Bool.false_eq_true, if_false]
  | cons x xs ih =>
    unfold insertFresh
    split
    · simp only [List.filter_cons (x := e), h, Bool.false_eq_true, if_false]
    · simp only [List.filter_cons, ih]

/-- A merge moves no entry and changes none outside its pair. -/
theorem filter_map_merge_off (h : may k i = true) (l : Bool) (es : List PendingEntry) :
    (es.map (PendingEntry.merge k i l)).filter (fun e => !may e.kind e.inst) =
      es.filter (fun e => !may e.kind e.inst) := by
  induction es with
  | nil => rfl
  | cons e es ih =>
    by_cases own : e.isFor k i = true
    · obtain ⟨rfl, rfl⟩ := (isFor_iff e k i).1 own
      simp only [List.map_cons, List.filter_cons, ih, PendingEntry.merge, own, if_true, h, Bool.not_true,
        Bool.false_eq_true, if_false]
    · simp only [List.map_cons, List.filter_cons, ih, PendingEntry.merge, own, Bool.false_eq_true, if_false]

theorem filter_deliver_off (q : PendingSet) (h : may k i = true) (r : Release) (l : Bool) :
    (q.deliver k i r l).all.filter (fun e => !may e.kind e.inst) = q.all.filter (fun e => !may e.kind e.inst) := by
  unfold PendingSet.deliver
  split
  · simp only [PendingSet.all, List.filter_append, filter_map_merge_off h]
  · simp only [PendingSet.all, List.filter_append]
    rw [filter_insertFresh_of_not (by simp only [h, Bool.not_true])]

theorem fire_agreesOff (x : Router) (h : may k i = true) (l : Bool) : x.AgreesOff (x.fire k i l) may := by
  refine ⟨rfl, fun p => ?_⟩
  simp only [Router.fire, look_tabulate]
  split
  · exact filter_deliver_off _ h _ _
  · rfl

theorem conditionEnded_agreesOff (x : Router) (h : may k i = true) : x.AgreesOff (x.conditionEnded k i) may := by
  have kept : ∀ e : PendingEntry, (!may e.kind e.inst && !(e.isFor k i && e.release == .clear)) =
      !may e.kind e.inst := by
    intro e
    by_cases own : e.isFor k i = true
    · obtain ⟨rfl, rfl⟩ := (isFor_iff e k i).1 own
      simp only [h, Bool.not_true, Bool.false_and]
    · simp only [own, Bool.false_and, Bool.not_false, Bool.and_true]
  refine ⟨rfl, fun p => ?_⟩
  simp only [Router.conditionEnded, look_tabulate, PendingSet.all, List.filter_append, List.filter_filter, kept]

theorem settle_agreesOff (x : Router) (may : CauseKind → StationId → Bool) : x.AgreesOff x.settle may :=
  ⟨rfl, fun p => by
    simp only [Router.settle, look_tabulate, PendingSet.settle, PendingSet.all, List.append_nil]⟩

theorem fired_agreesOff (x : Router) (h : may k i = true) (n : Nat) : x.AgreesOff (x.fired n k i) may := by
  induction n with
  | zero => exact .refl x may
  | succ n ih =>
    rw [Router.fired, Function.iterate_succ_apply']
    exact ih.trans (fire_agreesOff _ h false)

theorem readyChange_agreesOff (x : Router) (h : may .raiseReady i = true) (before after : Bool) :
    x.AgreesOff (x.readyChange i before after) may := by
  unfold Router.readyChange
  split
  · exact (fire_agreesOff x h false).trans (settle_agreesOff _ may)
  · split
    · exact conditionEnded_agreesOff x h
    · exact .refl x may

end

/-! ### The entries of one pair -/

section
variable {x y : Router} {k k' : CauseKind} {i i' : StationId} {p : Port}

theorem fired_agrees_other (x : Router) (h : ¬ (k = k' ∧ i = i')) (n : Nat) (p : Port) :
    (x.fired n k i).AgreesAt x k' i' p := by
  induction n with
  | zero => exact .refl x k' i' p
  | succ n ih =>
    rw [Router.fired, Function.iterate_succ_apply']
    exact (fire_agrees_other _ h false p).trans ih

theorem readyChange_agrees_other (x : Router) (h : ¬ (.raiseReady = k' ∧ i = i')) (before after : Bool) (p : Port) :
    (x.readyChange i before after).AgreesAt x k' i' p := by
  unfold Router.readyChange
  split
  · exact (settle_agrees _ k' i' p).trans (fire_agrees_other x h false p)
  · split
    · exact conditionEnded_agrees_other x h p
    · exact .refl x k' i' p

/-- A change of raise-ready does the same to its entries wherever they are the same. -/
theorem readyChange_agrees (r : x.routes = y.routes) (h : x.AgreesAt y .raiseReady i p) (before after : Bool) :
    (x.readyChange i before after).AgreesAt (y.readyChange i before after) .raiseReady i p := by
  unfold Router.readyChange
  split
  · exact ((settle_agrees _ _ i p).trans (fire_agrees r h false)).trans (settle_agrees _ _ i p).symm
  · split
    · exact conditionEnded_agrees h
    · exact h

end

/-! ### The notices of an event that keeps an entry's state and statuses -/

/-- How often STATS-FREEZE fires between two states: once when the unit became frozen (R145). -/
def State.freezings (s t : State) : Nat := if s.stats.frozen = false ∧ t.stats.frozen = true then 1 else 0

theorem freezings_self (s : State) : s.freezings s = 0 := if_neg fun h => by simp [h.1] at h

theorem newStatuses_of_same {a b : Station} (h : b.statuses = a.statuses) : a.newStatuses b = 0 := by
  simp only [Station.newStatuses, h, Bool.not_and_self, List.filter_false, List.length_nil]

/-- The router after an event that froze the unit or not, changed the raise-ready flag of station i or not, and fired
and ended nothing else. -/
def State.RaisesOnly (s t : State) (i : StationId) : Prop :=
  t.router = ((s.router.fired (s.freezings t) .statsFreeze 0).readyChange i (s.station i).ready
    (t.station i).ready).settle

theorem State.RaisesOnly.differsOnly {s t : State} {i : StationId} (h : s.RaisesOnly t i)
    (settled : ∀ p, (look s.router.sets p).fresh = []) : s.router.DiffersOnly t.router (ownPairs i) := by
  have freeze : ownPairs i .statsFreeze 0 = true := by simp only [ownPairs, beq_self_eq_true, Bool.or_true]
  have ready : ownPairs i .raiseReady i = true := by
    simp only [ownPairs, beq_self_eq_true, Bool.and_self, Bool.true_or]
  rw [h]
  refine (((fired_agreesOff _ freeze _).trans (readyChange_agreesOff _ ready _ _)).trans
    (settle_agreesOff _ _)).differsOnly settled fun p => ?_
  simp only [Router.settle, look_tabulate, PendingSet.settle]

theorem State.RaisesOnly.notices {s t : State} {i : StationId} (h : s.RaisesOnly t i)
    (state : (t.station i).state = (s.station i).state) (statuses : (t.station i).statuses = (s.station i).statuses)
    (p : Port) : s.Notices t i p := by
  have toFired : ∀ {k : CauseKind} {j : StationId}, k ≠ .raiseReady →
      t.router.AgreesAt (s.router.fired (s.freezings t) .statsFreeze 0) k j p := fun hk => by
    rw [h]
    exact (settle_agrees _ _ _ p).trans (readyChange_agrees_other _ (fun e => hk e.1.symm) _ _ p)
  have toBefore : ∀ {k : CauseKind}, k ≠ .raiseReady → k ≠ .statsFreeze → t.router.AgreesAt s.router k i p :=
    fun hr hf => (toFired hr).trans (fired_agrees_other _ (fun e => hf e.1.symm) _ p)
  have stays : ¬ ((s.station i).state ≠ .stale ∧ (t.station i).state = .stale) := fun e => e.1 (state ▸ e.2)
  have leaves : ((s.station i).state == .stale && (t.station i).state != .stale) = false := by
    rw [state, bne, Bool.and_not_self]
  refine ⟨?_, ?_, toFired (by decide)⟩
  · rw [newStatuses_of_same statuses]
    exact toBefore (by decide) (by decide)
  · rw [if_neg stays, leaves]
    exact toBefore (by decide) (by decide)

theorem State.RaisesOnly.readyNotice {s t : State} {i : StationId} (h : s.RaisesOnly t i) (p : Port) :
    s.ReadyNotice t i p := by
  have routes : (s.router.fired (s.freezings t) .statsFreeze 0).routes = s.router.routes :=
    (fired_agreesOff (may := fun _ _ => true) _ rfl _).routes
  unfold State.ReadyNotice
  rw [h]
  exact (settle_agrees _ _ i p).trans
    (readyChange_agrees routes (fired_agrees_other _ (fun e => by cases e.1) _ p) _ _)

/-! ### Source events -/

/-- A source event fires STATS-FREEZE when it freezes the unit, and nothing else (R142, R145). -/
theorem statEvent_router (s : State) (x : StatSource) (m : Nat) (p : Port) :
    (s.statEvent x m p).router = s.router.fired (s.freezings (s.statEvent x m p)) .statsFreeze 0 := by
  cases frozen : s.stats.frozen with
  | true =>
    have same : s.statEvent x m p = s := if_pos frozen
    rw [same, freezings_self]
    rfl
  | false =>
    simp only [State.statEvent, State.freezings, State.statFreeze, frozen, setStats_stats, Bool.false_eq_true, if_false]
    split
    · rfl
    · rw [setStats_stats, if_neg (by simp)]
      rfl

/-- A take's source event is one source event, or none. -/
theorem raiseEvent_cases (s : State) (i : StationId) (code : AnswerCode) (applied granted offer : Nat) :
    s.raiseEvent i code applied granted offer = s ∨
      ∃ x m, s.raiseEvent i code applied granted offer = s.statEvent x m (stationPort i) := by
  unfold State.raiseEvent
  split
  · exact .inl rfl
  · split
    · exact .inr ⟨_, _, rfl⟩
    · exact .inr ⟨_, _, rfl⟩

theorem raiseEvent_router (s : State) (i : StationId) (code : AnswerCode) (applied granted offer : Nat) :
    (s.raiseEvent i code applied granted offer).router =
      s.router.fired (s.freezings (s.raiseEvent i code applied granted offer)) .statsFreeze 0 := by
  obtain same | ⟨x, m, one⟩ := raiseEvent_cases s i code applied granted offer
  · rw [same, freezings_self]
    rfl
  · rw [one, statEvent_router]

/-- A take's source event reads and changes the statistics alone, but for the firing of STATS-FREEZE. -/
theorem raiseEvent_stats_congr {s t : State} (h : s.stats = t.stats) (i : StationId) (code : AnswerCode)
    (applied granted offer : Nat) :
    (s.raiseEvent i code applied granted offer).stats = (t.raiseEvent i code applied granted offer).stats := by
  unfold State.raiseEvent
  split
  · exact h
  · split
    · exact statEvent_stats_congr h _ _ _
    · exact statEvent_stats_congr h _ _ _

/-- A take's source event changes the statistics and the router alone. -/
theorem raiseEvent_eq (s : State) (i : StationId) (code : AnswerCode) (applied granted offer : Nat) :
    s.raiseEvent i code applied granted offer =
      { s with
        stats := (s.raiseEvent i code applied granted offer).stats
        router := (s.raiseEvent i code applied granted offer).router } := by
  obtain ⟨params, engine, published, stations, heldTakes, storage, ramp, ports, choices, lastClear, pending⟩ :=
    raiseEvent_frame s i code applied granted offer
  rw [← params, ← engine, ← published, ← stations, ← heldTakes, ← storage, ← ramp, ← ports, ← choices,
    ← lastClear, ← pending]

/-! ### The pool (R72) -/

theorem reserved_eq (e : Station) : e.reserved = (e.interlock.map Interlock.reserved).getD 0 := by
  unfold Station.reserved
  cases e.interlock <;> rfl

theorem sumStations_add_single {f g : StationId → Nat} {i : StationId} {d : Nat} (own : g i = f i + d)
    (other : ∀ j, j ≠ i → g j = f j) : sumStations g = sumStations f + d := by
  have pointwise : ∀ j, g j = f j + if j = i then d else 0 := by
    intro j
    split
    · next e => rw [e, own]
    · next e => rw [other j e, Nat.add_zero]
  rw [sumStations_eq_sum, sumStations_eq_sum, Finset.sum_congr rfl fun j _ => pointwise j, Finset.sum_add_distrib,
    Finset.sum_ite_eq', if_pos (Finset.mem_univ i)]

/-- An interlock that opens on a station of the mask takes its reserved raise out of the pool. -/
theorem pool_of_opened {s t : State} {i : StationId} {r : Interlock} (published : t.published = s.published)
    (mask : look s.published.mask i = true) (closed : (s.station i).interlock = none)
    (applied : (t.station i).applied = (s.station i).applied) (opened : (t.station i).interlock = some r)
    (others : ∀ j, j ≠ i → t.station j = s.station j) : t.pool = s.pool - r.reserved := by
  unfold State.pool
  rw [published, sumStations_add_single (i := i) (d := r.reserved)
    (f := fun j => if look s.published.mask j then (s.station j).applied + (s.station j).reserved else 0)]
  · push_cast
    omega
  · simp only [mask, if_true, applied, Station.reserved, opened, closed, Nat.add_zero]
  · intro j hj
    simp only [others j hj]

/-! ### The grant (R79, R80) -/

theorem grantOf_granted (s : State) (i : StationId) :
    (grantOf s i).2 =
      if s.liveOffer s.published i ≤ (s.station i).applied then s.liveOffer s.published i
      else if s.raiseFrozen i then (s.station i).applied
      else (s.station i).applied + min (s.liveOffer s.published i - (s.station i).applied) s.pool.toNat := by
  unfold grantOf
  simp only
  split
  · rfl
  · split <;> rfl

theorem grantOf_code (s : State) (i : StationId) :
    (grantOf s i).1 =
      if s.liveOffer s.published i ≤ (s.station i).applied then .ok
      else if s.raiseFrozen i then .partialFrozen
      else if (grantOf s i).2 = s.liveOffer s.published i then .ok else .partialPool := by
  unfold grantOf
  simp only
  split
  · rfl
  · split <;> rfl

/-- A take that raises is answered OK exactly when it gets the whole offer. -/
theorem grantOf_ok_iff {s : State} {i : StationId} (raise : ¬ s.liveOffer s.published i ≤ (s.station i).applied) :
    (grantOf s i).1 = .ok ↔ (grantOf s i).2 = s.liveOffer s.published i := by
  rw [grantOf_code, if_neg raise]
  split
  · next frozen =>
    rw [grantOf_granted, if_neg raise, if_pos frozen]
    exact iff_of_false (by decide) (by omega)
  · split
    · next whole => exact iff_of_true rfl whole
    · next less => exact iff_of_false (by decide) less

/-- The source event of a take from the record (R79, R80). -/
theorem raiseEvent_grantOf (s : State) (i : StationId) :
    s.raiseEvent i (grantOf s i).1 (s.station i).applied (grantOf s i).2 (s.liveOffer s.published i) =
      if s.liveOffer s.published i ≤ (s.station i).applied then s
      else if (grantOf s i).2 = s.liveOffer s.published i then
        s.statEvent .raiseFull ((grantOf s i).2 - (s.station i).applied) (stationPort i)
      else s.statEvent .raisePartial (s.liveOffer s.published i - (grantOf s i).2) (stationPort i) := by
  unfold State.raiseEvent
  by_cases held : s.liveOffer s.published i ≤ (s.station i).applied
  · simp only [if_pos held]
  · simp only [if_neg held, grantOf_ok_iff held]

/-! ### The take from the record -/

/-- The interlock record a take from the record opens (R71, R79). -/
def grantRecord (s : State) (i : StationId) : Interlock :=
  { granted := (grantOf s i).2, reserved := (grantOf s i).2 - (s.station i).applied, takeTag := s.published.tag,
    publications := 0 }

/-- The state in which the interlock stands open and the take's source event has been handed over. -/
def State.granting (s : State) (i : StationId) : State :=
  (s.updStation i fun e => { e with interlock := some (grantRecord s i) }).raiseEvent i (grantOf s i).1
    (s.station i).applied (grantOf s i).2 (s.liveOffer s.published i)

/-- Neither the open interlock nor the mark of a FAULT-CLEAR counts for the statistics. -/
theorem granting_stats (s : State) (i : StationId) :
    (s.nextEvent.granting i).stats =
      (s.raiseEvent i (grantOf s i).1 (s.station i).applied (grantOf s i).2 (s.liveOffer s.published i)).stats :=
  raiseEvent_stats_congr (s := s.nextEvent.updStation i _) (t := s) rfl ..

theorem granting_router (s : State) (i : StationId) :
    (s.granting i).router = s.router.fired (s.freezings (s.granting i)) .statsFreeze 0 :=
  raiseEvent_router ..

/-- With its interlock open the station is not ready to raise (R88). -/
theorem takeFromRecord_state (s : State) (i : StationId) :
    (takeFromRecord s i).1 =
      { s.updStation i fun e => { e with interlock := some (grantRecord s i), ready := false } with
        stats := (s.granting i).stats
        router := (s.granting i).router.readyChange i (s.station i).ready false } := by
  have entry : (s.granting i).station i = { s.station i with interlock := some (grantRecord s i) } := by
    simp only [State.granting, raiseEvent_reads, station_updStation, if_true]
  have unready : (s.granting i).readyCondition i = false := by
    simp only [State.readyCondition, entry, Option.isNone_some, Bool.and_false, Bool.false_and]
  have evaluated : (takeFromRecord s i).1 = ((s.granting i).updStation i fun e => { e with ready := false }).setRouter
      ((s.granting i).router.readyChange i (s.station i).ready false) := by
    refine (evalReady_of_condition_false unready).trans ?_
    rw [entry]
  have cleared : (s.granting i).updStation i (fun e => { e with ready := false }) =
      { (s.updStation i fun e => { e with interlock := some (grantRecord s i) }).updStation i
          (fun e => { e with ready := false }) with
        stats := (s.granting i).stats, router := (s.granting i).router } :=
    congrArg (fun t : State => t.updStation i fun e => { e with ready := false }) (raiseEvent_eq ..)
  rw [evaluated, cleared, updStation_updStation]
  rfl

theorem takeFromRecord_reply (s : State) (i : StationId) :
    (takeFromRecord s i).2 =
      { code := (grantOf s i).1
        payload := takePayload (s.station i).state (grantOf s i).2 (s.liveOffer s.published i) s.published.tag } := rfl

/-! ### CEIL-TAKE -/

/-- A take of an ONLINE station of the mask, while the engine is RUNNING, is answered at once from the record. -/
theorem serveCeilTake_of_record {s : State} {i : StationId} (running : s.engine.run = .running)
    (online : (s.station i).state = .online) (mask : look s.published.mask i = true) (tag : Byte) :
    serveCeilTake s i tag = answered (takeFromRecord s i) := by
  have landed : s.runInFlight = false := by simp only [State.runInFlight, running]
  have unhalted : s.halted = false := by simp only [State.halted, running]
  simp only [serveCeilTake, answerTake, landed, unhalted, online, mask, answered, reduceCtorEq, Bool.false_eq_true,
    if_false, decide_true, Bool.and_self, if_true]

/-- The state a take from the record leaves: the interlock open, raise-ready clear, the source event counted, the answer
in the reply queue. -/
def State.afterTake (s : State) (i : StationId) (tag : Byte) : State :=
  { (s.updStation i fun e => { e with interlock := some (grantRecord s i), ready := false }).replyOn (stationPort i) 4
      tag (grantOf s i).1
      (takePayload (s.station i).state (grantOf s i).2 (s.liveOffer s.published i) s.published.tag) with
    stats := (s.granting i).stats
    router := ((s.granting i).router.readyChange i (s.station i).ready false).settle }

theorem exec_ceilTake_of_record {s : State} {i : StationId} (h : s.Serves (stationPort i))
    (running : s.engine.run = .running) (online : (s.station i).state = .online)
    (mask : look s.published.mask i = true) (tag : Byte) :
    exec (.ceilTake (stationPort i) tag) s = .next (s.nextEvent.afterTake i tag) := by
  have served : serveBody s.nextEvent (stationPort i) { tag := tag, body := .ceilTake } =
      answered (takeFromRecord s.nextEvent i) := by
    simp only [serveBody, roleOf_stationPort]
    exact serveCeilTake_of_record (s := s.nextEvent) running online mask tag
  rw [exec_of_requestOf rfl, request_of_answer h (by simp) served (by simp), takeFromRecord_state,
    takeFromRecord_reply]
  rfl

theorem afterTake_station_self (s : State) (i : StationId) (tag : Byte) :
    (s.afterTake i tag).station i = { s.station i with interlock := some (grantRecord s i), ready := false } :=
  (station_updStation s i i fun e => { e with interlock := some (grantRecord s i), ready := false }).trans (if_pos rfl)

theorem afterTake_station_other (s : State) {i j : StationId} (tag : Byte) (h : j ≠ i) :
    (s.afterTake i tag).station j = s.station j :=
  (station_updStation s i j fun e => { e with interlock := some (grantRecord s i), ready := false }).trans
    (if_neg h.symm)

theorem afterTake_raisesOnly (s : State) (i : StationId) (tag : Byte) : s.RaisesOnly (s.afterTake i tag) i := by
  have ready : ((s.afterTake i tag).station i).ready = false := congrArg Station.ready (afterTake_station_self s i tag)
  unfold State.RaisesOnly
  rw [ready]
  show ((s.granting i).router.readyChange i (s.station i).ready false).settle = _
  rw [granting_router]
  rfl

/-- Settles O17: the take is answered from the record (`exec_ceilTake_of_record`) with the grant of R79 and R80
(`grantOf_granted`, `grantOf_code`); it keeps the entry's state and statuses, so its notices are those of raise-ready
and of a freezing unit (`afterTake_raisesOnly`). -/
theorem ceilTakeGrants : Obligations.CeilTakeGrants := by
  intro s i tag h running online mask p e offer frozen pool granted code
  have closed : (s.station i).interlock = none := by
    have unlocked := h.unlocked
    simpa only [State.locked, roleOf_stationPort, Option.isSome_eq_false_iff, Option.isNone_iff_eq_none] using unlocked
  have pool_eq : s.pool = pool := by
    simp only [State.pool, reserved_eq]
    rfl
  have granted_eq : (grantOf s i).2 = granted := by
    rw [grantOf_granted, pool_eq]
    rfl
  have code_eq : (grantOf s i).1 = code := by
    rw [grantOf_code, granted_eq]
    rfl
  have own : (s.nextEvent.afterTake i tag).station i =
      { s.station i with interlock := some (grantRecord s i), ready := false } :=
    afterTake_station_self s.nextEvent i tag
  have raises : s.RaisesOnly (s.nextEvent.afterTake i tag) i := afterTake_raisesOnly s.nextEvent i tag
  refine ⟨s.nextEvent.afterTake i tag, exec_ceilTake_of_record h running online mask tag, ?_, pool_eq, ?_, ?_,
    raises.differsOnly h.listening.quiet.settled, fun q => ⟨raises.notices ?_ ?_ q, raises.readyNotice q⟩⟩
  · rw [← granted_eq, ← code_eq]
    rfl
  · rw [← pool_eq, ← granted_eq]
    exact pool_of_opened (r := grantRecord s i) rfl mask closed (by rw [own]) (by rw [own])
      fun j hj => afterTake_station_other s.nextEvent tag hj
  · rw [← granted_eq]
    exact (granting_stats s i).trans (congrArg State.stats (raiseEvent_grantOf s i))
  · rw [own]
  · rw [own]

end Sys2Proof.Machine

/-! PROOFS. FREEZE-RELEASE: what the evaluation of raise-ready does to the entries and to the pending sets, the release
of scopes, and the service of the request. -/

namespace Sys2Proof.Machine

/-! ### The evaluation of one raise-ready flag (R88, R89) -/

/-- The condition of R88 reads the parameters, the published record, the scopes and the station's entry without its
raise-ready flag. -/
theorem readyCondition_congr {s t : State} {i : StationId} {b : Bool} (params : t.params = s.params)
    (published : t.published = s.published) (ramp : t.ramp = s.ramp)
    (station : t.station i = { s.station i with ready := b }) : t.readyCondition i = s.readyCondition i := by
  unfold State.readyCondition State.raiseFrozen State.liveOffer
  rw [station, params, published, ramp]

theorem evalReady_of_condition_true {s : State} {i : StationId} (h : s.readyCondition i = true) :
    s.evalReady i = (s.updStation i fun e => { e with ready := true }).setRouter
      (if (s.station i).ready then s.router else s.router.fire .raiseReady i false) := by
  cases ready : (s.station i).ready with
  | true =>
    have same : s.updStation i (fun e => { e with ready := true }) = s :=
      (updStation_congr (by rw [← ready])).trans (updStation_self s i)
    simp only [State.evalReady, h, ready, same, if_true]
    rfl
  | false =>
    simp only [State.evalReady, h, ready, Bool.false_eq_true, if_false, if_true]
    rfl

theorem station_evalReady (s : State) (i j : StationId) :
    (s.evalReady i).station j =
      if i = j then { s.station j with ready := s.readyCondition j } else s.station j := by
  cases condition : s.readyCondition i with
  | true =>
    rw [evalReady_of_condition_true condition, station_setRouter, station_updStation]
    split
    · next own => rw [← own, condition]
    · rfl
  | false =>
    rw [evalReady_of_condition_false condition, station_setRouter, station_updStation]
    split
    · next own => rw [← own, condition]
    · rfl

/-- The evaluation of a flag gives its own notice (R89). -/
theorem evalReady_readyNotice (s : State) (i : StationId) (p : Port) : s.ReadyNotice (s.evalReady i) i p := by
  unfold State.ReadyNotice
  rw [station_evalReady, if_pos rfl]
  cases condition : s.readyCondition i with
  | false =>
    rw [evalReady_of_condition_false condition]
    exact .refl ..
  | true =>
    rw [evalReady_of_condition_true condition]
    cases (s.station i).ready with
    | true => exact .refl ..
    | false => exact (settle_agrees ..).symm

/-- The evaluation of a flag touches the RAISE-READY entries of its station alone. -/
theorem evalReady_agreesOff (s : State) {i : StationId} {may : CauseKind → StationId → Bool}
    (h : may .raiseReady i = true) : s.router.AgreesOff (s.evalReady i).router may := by
  cases condition : s.readyCondition i with
  | false =>
    rw [evalReady_of_condition_false condition]
    exact readyChange_agreesOff s.router h (s.station i).ready false
  | true =>
    rw [evalReady_of_condition_true condition]
    cases (s.station i).ready with
    | true => exact .refl ..
    | false => exact fire_agreesOff _ h _

/-! ### The evaluation of several raise-ready flags -/

/-- From `s` to `t` the raise-ready flags of the stations in `found` have been found again (R88), with the notices of
R89, and neither another entry nor a pending entry of another kind has changed. -/
structure State.ReadyFound (s t : State) (found : List StationId) : Prop where
  params : t.params = s.params
  published : t.published = s.published
  ramp : t.ramp = s.ramp
  station : ∀ i, t.station i =
    { s.station i with ready := if i ∈ found then s.readyCondition i else (s.station i).ready }
  notice : ∀ i p, s.ReadyNotice t i p
  others : ∀ may : CauseKind → StationId → Bool, (∀ i, may .raiseReady i = true) → s.router.AgreesOff t.router may

theorem readyChange_same (x : Router) (i : StationId) (b : Bool) : x.readyChange i b b = x := by
  cases b <;> rfl

theorem State.ReadyFound.refl (s : State) : s.ReadyFound s [] where
  params := rfl
  published := rfl
  ramp := rfl
  station _ := rfl
  notice i p := by
    rw [State.ReadyNotice, readyChange_same]
    exact .refl ..
  others may _ := .refl _ may

theorem State.ReadyFound.condition {s t : State} {found : List StationId} (h : s.ReadyFound t found) (i : StationId) :
    t.readyCondition i = s.readyCondition i :=
  readyCondition_congr h.params h.published h.ramp (h.station i)

/-- One flag more: an evaluation changes nothing that the condition of another station reads. -/
theorem State.ReadyFound.evalReady {s t : State} {found : List StationId} (h : s.ReadyFound t found) {i : StationId}
    (new : i ∉ found) : s.ReadyFound (t.evalReady i) (found ++ [i]) where
  params := (evalReady_frame t i).1.trans h.params
  published := by simp only [evalReady_frame, h.published]
  ramp := by simp only [evalReady_frame, h.ramp]
  station j := by
    rw [station_evalReady, h.condition j, h.station j]
    by_cases own : i = j
    · subst own
      simp
    · simp [own, Ne.symm own]
  notice j p := by
    unfold State.ReadyNotice
    by_cases own : j = i
    · subst own
      have ready : (t.station j).ready = (s.station j).ready := by rw [h.station j, if_neg new]
      have before : t.router.AgreesAt s.router .raiseReady j p := by
        simpa only [State.ReadyNotice, ready, readyChange_same] using h.notice j p
      have step := evalReady_readyNotice t j p
      rw [State.ReadyNotice, ready] at step
      exact step.trans (readyChange_agrees (h.others (fun _ _ => true) fun _ => rfl).routes before _ _)
    · rw [station_evalReady, if_neg (Ne.symm own)]
      exact (evalReady_agrees t i (fun e => own e.2) p).trans (h.notice j p)
  others may ready := (h.others may ready).trans (evalReady_agreesOff t (ready i))

theorem State.ReadyFound.foldl {s t : State} {found : List StationId} (h : s.ReadyFound t found)
    {is : List StationId} (nodup : (found ++ is).Nodup) :
    s.ReadyFound (is.foldl State.evalReady t) (found ++ is) := by
  induction is generalizing t found with
  | nil => simpa using h
  | cons i is ih =>
    have moved : found ++ i :: is = found ++ [i] ++ is := by simp
    have new : i ∉ found := fun old => (List.nodup_append.1 nodup).2.2 i old i (List.mem_cons_self ..) rfl
    rw [moved] at nodup ⊢
    exact ih (h.evalReady new) nodup

theorem evalReadyAll_readyFound (s : State) : s.ReadyFound s.evalReadyAll stationIds :=
  (State.ReadyFound.refl s).foldl (is := stationIds) (by decide)

/-! ### The release of scopes (R129) -/

/-- Whether a frozen scope is not frozen in a new table of scopes. -/
def State.frees (s : State) (x : Vector Scope 5) : Bool :=
  scopeIds.any fun n => (look s.ramp.scopes n).frozen && !(look x n).frozen

theorem frees_iff {s : State} {x : Vector Scope 5} :
    s.frees x = true ↔ ∃ n, (look s.ramp.scopes n).frozen = true ∧ (look x n).frozen = false := by
  simp only [State.frees, List.any_eq_true, mem_scopeIds, true_and, Bool.and_eq_true, Bool.not_eq_true']

theorem anyFrozen_iff {r : Ramp} : r.anyFrozen = true ↔ ∃ n, (look r.scopes n).frozen = true := by
  simp only [Ramp.anyFrozen, List.any_eq_true, mem_scopeIds, true_and]

/-- Whether a new table of scopes ends the FREEZE condition: a scope is released and none is left frozen. -/
def State.thaws (s : State) (x : Vector Scope 5) : Bool :=
  s.frees x && !({ s.ramp with scopes := x } : Ramp).anyFrozen

/-- The state with a new table of scopes and the end report of FREEZE it brings, before raise-ready is found again. -/
def State.withScopes (s : State) (x : Vector Scope 5) : State :=
  { s with ramp := { s.ramp with scopes := x }, router := s.router.endedIf (s.thaws x) .freeze 0 }

theorem releaseScopes_readyFound (s : State) (x : Vector Scope 5) :
    (s.withScopes x).ReadyFound (s.releaseScopes x) (if s.frees x then stationIds else []) := by
  cases frees : s.frees x with
  | false =>
    have kept : s.releaseScopes x = s.withScopes x := by
      simp only [State.withScopes, State.thaws, frees]
      exact if_neg (Bool.eq_false_iff.1 frees)
    rw [kept]
    exact .refl _
  | true =>
    have found : s.releaseScopes x = (s.withScopes x).evalReadyAll := by
      have unfolded : s.releaseScopes x =
          (if ({ s.ramp with scopes := x } : Ramp).anyFrozen then s.setRamp { s.ramp with scopes := x }
            else (s.setRamp { s.ramp with scopes := x }).conditionEnded .freeze 0).evalReadyAll := if_pos frees
      rw [unfolded]
      simp only [State.withScopes, State.thaws, frees, Bool.true_and]
      cases ({ s.ramp with scopes := x } : Ramp).anyFrozen <;> rfl
    rw [found]
    exact evalReadyAll_readyFound _

theorem releaseScopes_ramp (s : State) (x : Vector Scope 5) :
    (s.releaseScopes x).ramp = { s.ramp with scopes := x } := (releaseScopes_readyFound s x).ramp

/-- A release changes the scopes, the entries and the router alone. -/
theorem releaseScopes_eq (s : State) (x : Vector Scope 5) :
    s.releaseScopes x =
      { s with
        ramp := { s.ramp with scopes := x }
        stations := (s.releaseScopes x).stations
        router := (s.releaseScopes x).router } := by
  obtain ⟨params, engine, published, heldTakes, storage, stats, ports, choices, lastClear, pending⟩ :=
    releaseScopes_frame s x
  rw [← params, ← engine, ← published, ← heldTakes, ← storage, ← stats, ← ports, ← choices, ← lastClear, ← pending,
    ← releaseScopes_ramp]

theorem releaseScopes_station (s : State) (x : Vector Scope 5) (i : StationId) :
    (s.releaseScopes x).station i =
      { s.station i with
        ready := if s.frees x then (s.releaseScopes x).readyCondition i else (s.station i).ready } := by
  have found := releaseScopes_readyFound s x
  rw [found.station i, found.condition i]
  cases s.frees x with
  | true =>
    rw [if_pos rfl, if_pos (mem_stationIds i), if_pos rfl]
    rfl
  | false => rfl

theorem endedIf_agreesOff (x : Router) {may : CauseKind → StationId → Bool} {k : CauseKind} {i : StationId}
    (h : may k i = true) (c : Bool) : x.AgreesOff (x.endedIf c k i) may := by
  cases c with
  | true => exact conditionEnded_agreesOff x h
  | false => exact .refl x may

theorem endedIf_agrees_other (x : Router) {k k' : CauseKind} {i i' : StationId} (h : ¬ (k = k' ∧ i = i')) (c : Bool)
    (p : Port) : (x.endedIf c k i).AgreesAt x k' i' p := by
  cases c with
  | true => exact conditionEnded_agrees_other x h p
  | false => exact .refl ..

theorem endedIf_settled {x : Router} (h : ∀ q, (look x.sets q).fresh = []) (c : Bool) (k : CauseKind) (i : StationId)
    (q : Port) : (look (x.endedIf c k i).sets q).fresh = [] := by
  cases c with
  | true => exact conditionEnded_settled h k i q
  | false => exact h q

/-- The RAISE-READY entries do not show the end report of FREEZE. -/
theorem releaseScopes_readyNotice (s : State) (x : Vector Scope 5) (i : StationId) (p : Port) :
    s.ReadyNotice (s.releaseScopes x) i p := by
  have routes : (s.withScopes x).router.routes = s.router.routes :=
    (endedIf_agreesOff s.router (may := fun _ _ => true) (k := .freeze) (i := 0) rfl (s.thaws x)).routes
  exact ((releaseScopes_readyFound s x).notice i p).trans
    (readyChange_agrees routes (endedIf_agrees_other s.router (fun e => by cases e.1) (s.thaws x) p) _ _)

/-! ### The pending sets at the end of a release -/

/-- But for RAISE-READY, the end of the event shows the end report of FREEZE, if there was one, and nothing else. -/
theorem releaseScopes_settle_differsOnly {s : State} (settled : ∀ p, (look s.router.sets p).fresh = [])
    (x : Vector Scope 5) {may : CauseKind → StationId → Bool} (h : ∀ i, may .raiseReady i = true) :
    (s.router.endedIf (s.thaws x) .freeze 0).DiffersOnly (s.releaseScopes x).router.settle may :=
  (((releaseScopes_readyFound s x).others may h).trans (settle_agreesOff _ may)).differsOnly
    (endedIf_settled settled _ _ _) fun p => by simp only [Router.settle, look_tabulate, PendingSet.settle]

theorem releaseScopes_differsOnly {s : State} (settled : ∀ p, (look s.router.sets p).fresh = []) (x : Vector Scope 5) :
    s.router.DiffersOnly (s.releaseScopes x).router.settle (fun k _ => k == .raiseReady || k == .freeze) := by
  have ended : s.router.AgreesOff (s.router.endedIf (s.thaws x) .freeze 0)
      (fun k _ => k == .raiseReady || k == .freeze) := endedIf_agreesOff _ rfl _
  obtain ⟨routes, others⟩ := releaseScopes_settle_differsOnly settled x
    (may := fun k _ => k == .raiseReady || k == .freeze) fun _ => rfl
  obtain ⟨routes', others'⟩ := ended.differsOnly settled (endedIf_settled settled _ _ _)
  exact ⟨routes.trans routes', fun p => (others p).trans (others' p)⟩

/-- At the end of the event, the FREEZE entries are those that the end report, if there was one, has left. -/
theorem releaseScopes_freeze_entries {s : State} (settled : ∀ p, (look s.router.sets p).fresh = [])
    (x : Vector Scope 5) (p : Port) :
    (look (s.releaseScopes x).router.settle.sets p).entries.filter (fun e => e.kind == .freeze) =
      (look (s.router.endedIf (s.thaws x) .freeze 0).sets p).entries.filter fun e => e.kind == .freeze := by
  have others := (releaseScopes_settle_differsOnly settled x (may := fun k _ => !(k == .freeze)) fun _ => rfl).others p
  simpa only [Bool.not_not] using others

/-- An end report leaves no CLEAR entry of its pair. -/
theorem release_of_mem_conditionEnded {x : Router} {k : CauseKind} {i : StationId} {p : Port} {e : PendingEntry}
    (h : e ∈ (look (x.conditionEnded k i).sets p).entries) (kind : e.kind = k) (inst : e.inst = i) :
    e.release = .ack := by
  have own : e.isFor k i = true := (isFor_iff e k i).2 ⟨kind, inst⟩
  simp only [Router.conditionEnded, look_tabulate, List.mem_filter, own, Bool.true_and] at h
  cases release : e.release with
  | ack => rfl
  | clear => simp [release] at h

theorem releaseScopes_freeze_of_thaws {s : State} (settled : ∀ p, (look s.router.sets p).fresh = [])
    {x : Vector Scope 5} (h : s.thaws x = true) {p : Port} {e : PendingEntry}
    (mem : e ∈ (look (s.releaseScopes x).router.settle.sets p).entries) (kind : e.kind = .freeze) (inst : e.inst = 0) :
    e.release = .ack := by
  have shown : e ∈ (look (s.releaseScopes x).router.settle.sets p).entries.filter fun e => e.kind == .freeze :=
    List.mem_filter.2 ⟨mem, beq_iff_eq.2 kind⟩
  rw [releaseScopes_freeze_entries settled, h] at shown
  exact release_of_mem_conditionEnded (List.mem_filter.1 shown).1 kind inst

theorem releaseScopes_freeze_of_not_thaws {s : State} (settled : ∀ p, (look s.router.sets p).fresh = [])
    {x : Vector Scope 5} (h : s.thaws x = false) (p : Port) :
    (look (s.releaseScopes x).router.settle.sets p).entries.filter (fun e => e.kind == .freeze) =
      (look s.router.sets p).entries.filter fun e => e.kind == .freeze := by
  rw [releaseScopes_freeze_entries settled, h]
  rfl

/-! ### FREEZE-RELEASE (R128) -/

/-- The scopes after a release of the named ones: those that are frozen are released. -/
def Ramp.releaseNamed (r : Ramp) (named : ScopeId → Bool) : Vector Scope 5 :=
  tabulate fun n => if named n && (look r.scopes n).frozen then Scope.released else look r.scopes n

theorem releaseNamed_frozen (r : Ramp) (named : ScopeId → Bool) (n : ScopeId) :
    (look (r.releaseNamed named) n).frozen = ((look r.scopes n).frozen && !named n) := by
  rw [Ramp.releaseNamed, look_tabulate]
  cases named n <;> cases frozen : (look r.scopes n).frozen <;> simp [frozen, Scope.released]

theorem frees_releaseNamed_iff {s : State} {named : ScopeId → Bool} :
    s.frees (s.ramp.releaseNamed named) = true ↔ ∃ n, (look s.ramp.scopes n).frozen = true ∧ named n = true := by
  rw [frees_iff]
  refine exists_congr fun n => and_congr_right fun frozen => ?_
  rw [releaseNamed_frozen, frozen, Bool.true_and, Bool.not_eq_false']

/-- A release of named scopes ends the FREEZE condition when there was a frozen scope and each is named. -/
theorem thaws_releaseNamed_iff {s : State} {named : ScopeId → Bool} :
    s.thaws (s.ramp.releaseNamed named) = true ↔
      (∃ n, (look s.ramp.scopes n).frozen = true) ∧ ∀ n, ((look s.ramp.scopes n).frozen && !named n) = false := by
  have thawed : (Ramp.anyFrozen { s.ramp with scopes := s.ramp.releaseNamed named }) = false ↔
      ∀ n, ((look s.ramp.scopes n).frozen && !named n) = false := by
    rw [Bool.eq_false_iff, ne_eq, anyFrozen_iff]
    simp only [releaseNamed_frozen, not_exists, Bool.not_eq_true]
  rw [State.thaws, Bool.and_eq_true, Bool.not_eq_true', thawed, frees_releaseNamed_iff]
  refine and_congr_left fun none_left => exists_congr fun n => and_iff_left_of_imp fun frozen => ?_
  simpa only [frozen, Bool.true_and, Bool.not_eq_false'] using none_left n

/-- The byte of the frozen scopes as the sum of their bits. -/
theorem frozenByte_eq (r : Ramp) {frozen : ScopeId → Bool} (h : ∀ n, (look r.scopes n).frozen = frozen n) :
    r.frozenByte = f8 ((if frozen 0 then 1 else 0) + (if frozen 1 then 2 else 0) + (if frozen 2 then 4 else 0) +
      (if frozen 3 then 8 else 0) + (if frozen 4 then 16 else 0)) := by
  have five : List.finRange 5 = [0, 1, 2, 3, 4] := by decide
  simp only [Ramp.frozenByte, h, bitsOf, five, look_tabulate, flagAt_eq, List.map_cons, List.map_nil, List.sum_cons,
    List.sum_nil, Nat.add_zero, Nat.add_assoc]
  rfl

theorem namedScopes_of_range {scope : Byte} (h : 4 < scope.toNat) (all : scope ≠ 255) : namedScopes scope = none := by
  exact (if_neg all).trans (congrArg (Option.map fun n => [n]) (index?_of_le h))

/-- A byte that names scopes names all five, or the one whose number it is. -/
theorem namedScopes_of_named {scope : Byte} (h : scope.toNat ≤ 4 ∨ scope = 255) :
    ∃ ns, namedScopes scope = some ns ∧ ∀ n : ScopeId, ns.contains n = (scope == 255 || scope.toNat == n.val) := by
  by_cases all : scope = 255
  · refine ⟨scopeIds, if_pos all, fun n => ?_⟩
    rw [List.contains_iff_mem.2 (mem_scopeIds n), beq_iff_eq.2 all, Bool.true_or]
  · have one : scope.toNat < 5 := Nat.lt_succ_of_le (h.resolve_right all)
    refine ⟨[⟨scope.toNat, one⟩], ?_, fun n => ?_⟩
    · exact (if_neg all).trans (congrArg (Option.map fun n => [n]) (index?_of_lt one))
    · rw [beq_eq_false_iff_ne.2 all, Bool.false_or, Bool.eq_iff_iff, List.contains_iff_mem, List.mem_singleton,
        beq_iff_eq, Fin.ext_iff, eq_comm]

theorem serveFreezeRelease_of_range {s : State} {scope : Byte} (h : 4 < scope.toNat) (all : scope ≠ 255) :
    serveFreezeRelease s scope = (s, refuse .refusedRange) := by
  simp only [serveFreezeRelease, namedScopes_of_range h all]

theorem serveFreezeRelease_of_named {s : State} {scope : Byte} (h : scope.toNat ≤ 4 ∨ scope = 255)
    {named : ScopeId → Bool} (hn : ∀ n, named n = (scope == 255 || scope.toNat == n.val)) :
    serveFreezeRelease s scope =
      (s.releaseScopes (s.ramp.releaseNamed named),
        { code := .ok
          payload := (s.releaseScopes (s.ramp.releaseNamed named)).ramp.frozenByte ++ (0 : BitVec 56) }) := by
  obtain ⟨ns, some, names⟩ := namedScopes_of_named h
  simp only [serveFreezeRelease, some, names, Ramp.releaseNamed, hn]

/-- What the service of FREEZE-RELEASE leaves is what the command leaves, with its answer, at the end of the event. -/
theorem exec_freezeRelease {s u : State} {tag scope : Byte} {x : Reply} (h : s.Listening supervisorPort)
    (hx : serveFreezeRelease s.nextEvent scope = (u, x)) :
    exec (.freezeRelease supervisorPort tag scope) s =
      .next (u.replyOn supervisorPort 24 tag x.code x.payload).endEvent := by
  have hf := serveFreezeRelease_frame s.nextEvent scope
  rw [hx] at hf
  obtain ⟨-, -, -, -, -, -, -, -, lastClear, -⟩ := hf
  have served : serveBody s.nextEvent supervisorPort { tag := tag, body := .freezeRelease scope } = answered (u, x) :=
    (supervisorOnly_supervisorPort _ _).trans (congrArg answered hx)
  rw [exec_of_requestOf rfl, request_of_answer (serves_supervisor h) (by simp) served lastClear]
  rfl

theorem exec_freezeRelease_refused {s : State} {tag scope : Byte} (h : s.Listening supervisorPort)
    (range : 4 < scope.toNat) (all : scope ≠ 255) :
    exec (.freezeRelease supervisorPort tag scope) s = .next (s.replyOn supervisorPort 24 tag .refusedRange 0) := by
  rw [exec_freezeRelease h (serveFreezeRelease_of_range range all)]
  exact congrArg Host.Outcome.next (replyOn_endEvent (u := s.nextEvent) h.quiet.settled ..)

/-- The state that a release of the named scopes leaves, with its answer. -/
def State.afterRelease (s : State) (tag : Byte) (named : ScopeId → Bool) : State :=
  let now (n : ScopeId) : Bool := (look s.ramp.scopes n).frozen && !named n
  { State.replyOn { s with ramp := { s.ramp with scopes := s.ramp.releaseNamed named } } supervisorPort 24 tag .ok
      (f8 ((if now 0 then 1 else 0) + (if now 1 then 2 else 0) + (if now 2 then 4 else 0) +
        (if now 3 then 8 else 0) + (if now 4 then 16 else 0)) ++ 0#56) with
    stations := (s.releaseScopes (s.ramp.releaseNamed named)).stations
    router := (s.releaseScopes (s.ramp.releaseNamed named)).router.settle }

theorem endEvent_replyOn_releaseScopes (s : State) (tag : Byte) (named : ScopeId → Bool) :
    ((s.releaseScopes (s.ramp.releaseNamed named)).replyOn supervisorPort 24 tag .ok
      ((s.releaseScopes (s.ramp.releaseNamed named)).ramp.frozenByte ++ 0#56)).endEvent = s.afterRelease tag named := by
  have released := releaseScopes_eq s (s.ramp.releaseNamed named)
  rw [frozenByte_eq _ fun n => by rw [releaseScopes_ramp, releaseNamed_frozen], State.afterRelease]
  generalize s.releaseScopes (s.ramp.releaseNamed named) = u at released ⊢
  rw [released]
  rfl

/-- When a named scope was frozen, raise-ready is found again in the state that the release leaves. -/
theorem station_afterRelease (s : State) (tag : Byte) (named : ScopeId → Bool) (i : StationId) :
    (s.afterRelease tag named).station i =
      { s.station i with
        ready := if ∃ n, (look s.ramp.scopes n).frozen = true ∧ named n = true
          then (s.afterRelease tag named).readyCondition i else (s.station i).ready } := by
  rw [← endEvent_replyOn_releaseScopes]
  refine (releaseScopes_station s (s.ramp.releaseNamed named) i).trans ?_
  simp only [frees_releaseNamed_iff]
  rfl

theorem exec_freezeRelease_named {s : State} {tag scope : Byte} (h : s.Listening supervisorPort)
    (hs : scope.toNat ≤ 4 ∨ scope = 255) {named : ScopeId → Bool}
    (hn : ∀ n, named n = (scope == 255 || scope.toNat == n.val)) :
    exec (.freezeRelease supervisorPort tag scope) s = .next (s.nextEvent.afterRelease tag named) := by
  rw [exec_freezeRelease h (serveFreezeRelease_of_named hs hn)]
  exact congrArg Host.Outcome.next (endEvent_replyOn_releaseScopes s.nextEvent tag named)

/-- Settles O38: FREEZE-RELEASE is a release of the named scopes (`exec_freezeRelease_named`); what it does to the
entries and to the pending sets is what `State.releaseScopes` does (`releaseScopes_readyFound`). -/
theorem freezeReleaseReleasesNamed : Obligations.FreezeReleaseReleasesNamed := by
  refine fun s tag scope h => ⟨exec_freezeRelease_refused h, fun hs => ?_⟩
  intro named was now
  let x := s.ramp.releaseNamed named
  have settled : ∀ p, (look s.nextEvent.router.sets p).fresh = [] := h.quiet.settled
  refine ⟨s.nextEvent.afterRelease tag named, exec_freezeRelease_named h hs fun _ => rfl, rfl,
    station_afterRelease s.nextEvent tag named, releaseScopes_differsOnly settled x, fun i p => ?_,
    fun frozen none_left p e mem kind inst => ?_, fun kept p => ?_⟩
  · exact (settle_agrees _ _ i p).trans (releaseScopes_readyNotice s.nextEvent x i p)
  · exact releaseScopes_freeze_of_thaws settled (thaws_releaseNamed_iff.2 ⟨frozen, none_left⟩) mem kind inst
  · refine releaseScopes_freeze_of_not_thaws settled (Bool.eq_false_iff.2 fun thaws => ?_) p
    obtain ⟨⟨n, frozen⟩, none_left⟩ := thaws_releaseNamed_iff.1 thaws
    rcases kept with ⟨m, left⟩ | none_was
    · exact Bool.false_ne_true ((none_left m).symm.trans left)
    · exact Bool.false_ne_true ((none_was n).symm.trans frozen)

end Sys2Proof.Machine

/-! PROOFS. STAT-READ: the pages of the Statistics Unit, and the answer in every state whose supervisor port listens. -/

namespace Sys2Proof.Machine

/-! ### The pages (R152, R166) -/

/-- Pages 0 to 7: a counter's value, then its overflow flag and its enable bit. -/
theorem statsPage_value (st : Stats) (n : Fin 8) :
    st.page n.val = some ((look st.counters n).value ++
      f8 ((if (look st.counters n).overflow then 1 else 0) + (if (look st.counters n).control.enable then 2 else 0)) ++
      0#16) := by
  rw [Stats.page, if_pos n.isLt, index?_of_lt n.isLt]
  rfl

/-- A control record as bytes: the mask is the low twelve bits of its two, the flags are bits 4 to 6 of theirs. -/
theorem controlBytes_eq (c : Control) :
    c.bytes = f8 c.source.code ++ (0#4 ++ c.mask) ++
      f8 (c.mode.code + (if c.invert then 16 else 0) + (if c.freezeOnOverflow then 32 else 0) +
        (if c.enable then 64 else 0)) ++ c.threshold := by
  have mask : c.mask.zeroExtend 16 = 0#4 ++ c.mask := BitVec.setWidth_eq_append (by decide)
  rw [← mask]
  rfl

/-- Pages 8 to 15: a counter's control record. -/
theorem statsPage_control (st : Stats) (n : Fin 8) :
    st.page (n.val + 8) = some (look st.counters n).control.bytes := by
  rw [Stats.page, if_neg (by omega), if_pos (by omega), Nat.add_sub_cancel, index?_of_lt n.isLt]
  rfl

/-- Pages 16 to 22: a residency counter. -/
theorem statsPage_residency (st : Stats) (n : Fin 7) :
    st.page (n.val + 16) = some (f32 (look st.residency n) ++ 0#32) := by
  rw [Stats.page, if_neg (by omega), if_neg (by omega), if_pos (by omega), Nat.add_sub_cancel, index?_of_lt n.isLt]
  rfl

/-- A table of flags as a number. -/
theorem bitsOf_tabulate {m : Nat} (f : Fin m → Bool) :
    bitsOf (tabulate f) = ((List.finRange m).map fun n => if f n then 2 ^ n.val else 0).sum := by
  simp only [bitsOf, look_tabulate, flagAt_eq]

/-- Page 23: the run counter, the unit's flags, and the overflow flags and edge records of the counters. -/
theorem statsPage_unit (st : Stats) :
    st.page 23 = some (st.runCounter ++
      f8 ((if st.frozen then 1 else 0) + (if st.reason.manual then 2 else 0) + (if st.reason.overflow then 4 else 0) +
        (if st.reason.hard then 8 else 0) + (if st.freezeOnHard then 16 else 0)) ++
      f8 ((List.finRange 8).map fun n => if (look st.counters n).overflow then 2 ^ n.val else 0).sum ++
      f8 ((List.finRange 8).map fun n => if (look st.counters n).edge then 2 ^ n.val else 0).sum ++ 0#8) := by
  rw [← bitsOf_tabulate, ← bitsOf_tabulate]
  rfl

/-- Above page 23 there are only the filters. -/
theorem statsPage_above_unit (st : Stats) {page : Nat} (h : 23 < page) :
    st.page page = (index? 2 (page - 24)).map fun n => (look st.filters n).bytes ++ 0#24 := by
  rw [Stats.page, if_neg (by omega), if_neg (by omega), if_neg (by omega), if_neg h.ne']
  rfl

/-- Pages 24 and 25: a filter record. -/
theorem statsPage_filter (st : Stats) (n : Fin 2) :
    st.page (n.val + 24) = some ((look st.filters n).bytes ++ 0#24) := by
  rw [statsPage_above_unit st (by omega), Nat.add_sub_cancel, index?_of_lt n.isLt]
  rfl

theorem statsPage_above_last (st : Stats) {page : Nat} (h : 25 < page) : st.page page = none := by
  rw [statsPage_above_unit st (by omega), index?_of_le (by omega)]
  rfl

/-! ### STAT-READ -/

/-- The service of STAT-READ looks up its page, and only reads. -/
theorem serveStatRead_eq (s : State) (page : Byte) :
    serveStatRead s page = pageReply s (s.stats.page page.toNat) := by
  unfold serveStatRead
  cases s.stats.page page.toNat <;> rfl

/-- What STAT-READ answers: the page where the unit has one, else REFUSED(RANGE). -/
theorem exec_statRead {s : State} {tag page : Byte} (h : s.Listening supervisorPort) :
    exec (.statRead supervisorPort tag page) s =
      .next ((s.stats.page page.toNat).elim (s.replyOn supervisorPort 27 tag .refusedRange 0)
        (s.replyOn supervisorPort 27 tag .ok)) := by
  have served : serveBody s.nextEvent supervisorPort { tag := tag, body := .statRead page } =
      answered (pageReply s.nextEvent (s.stats.page page.toNat)) :=
    (supervisorOnly_supervisorPort _ _).trans (congrArg answered (serveStatRead_eq s.nextEvent page))
  generalize s.stats.page page.toNat = found at served ⊢
  cases found <;> exact exec_of_answer (serves_supervisor h) rfl (by simp) served rfl rfl

/-- STAT-READ of a page that the unit has. -/
theorem exec_statRead_page {s : State} {tag page : Byte} {k : Nat} {x : BitVec 64} (h : s.Listening supervisorPort)
    (hk : page.toNat = k) (hx : s.stats.page k = some x) :
    exec (.statRead supervisorPort tag page) s = .next (s.replyOn supervisorPort 27 tag .ok x) := by
  rw [exec_statRead h, hk, hx]
  rfl

/-- Settles O24: each page is one branch of `Stats.page`, and a page above 25 is none of them. -/
theorem statReadReturnsPages : Obligations.StatReadReturnsPages := by
  refine fun s tag page h => ⟨fun n hp => ?_, fun n hp => ?_, fun n hp => ?_, fun hp => ?_, fun n hp => ?_,
    fun hp => ?_⟩
  · exact exec_statRead_page h hp (statsPage_value s.stats n)
  · exact exec_statRead_page h hp ((statsPage_control s.stats n).trans (congrArg some (controlBytes_eq _)))
  · exact exec_statRead_page h hp (statsPage_residency s.stats n)
  · exact exec_statRead_page h hp (statsPage_unit s.stats)
  · exact exec_statRead_page h hp (statsPage_filter s.stats n)
  · rw [exec_statRead h, statsPage_above_last s.stats hp]
    rfl

end Sys2Proof.Machine

/-! PROOFS. Every step: a law that holds between events and what has to keep it within them, so that each invariant of
`step` is a statement about the parts of the commands. -/

namespace Sys2Proof.Machine

/-! ### A served request, taken apart -/

/-- What the answer of a request, or its holding, makes of the port it was taken on (R169). -/
def PortState.concluded (x : PortState) (r : Request) : Option Reply → PortState
  | some a =>
    { x with replies := x.replies ++ [{ kind := r.body.kind, tag := r.tag, code := a.code, payload := a.payload }] }
  | none => { x with handler := .busy }

/-- Serving a request is the service of its body and the conclusion on its own port. -/
theorem serve_eq (s : State) (p : Port) (r : Request) :
    s.serve p r =
      (serveBody (s.takingEnds p r.body) p r).1.updPort p
        fun x => x.concluded r (serveBody (s.takingEnds p r.body) p r).2 := by
  unfold State.serve
  split <;> next t a served => rw [served]; rfl

/-- `t` differs from `s` in nothing but the ports, the router and the model's own fields. -/
structure State.SameBlocks (s t : State) : Prop where
  params : t.params = s.params
  engine : t.engine = s.engine
  published : t.published = s.published
  stations : t.stations = s.stations
  heldTakes : t.heldTakes = s.heldTakes
  storage : t.storage = s.storage
  ramp : t.ramp = s.ramp
  stats : t.stats = s.stats

theorem updPort_sameBlocks (s : State) (p : Port) (f : PortState → PortState) : s.SameBlocks (s.updPort p f) :=
  ⟨rfl, rfl, rfl, rfl, rfl, rfl, rfl, rfl⟩

/-! ### The induction over the parts of a command -/

/-- A law `P` of the states between events, with what holds in the middle of an event (`Q`), is kept by the parts that
commands are made of. `ok` is what is known of every request that waits. -/
structure Kept (P Q : State → Prop) (ok : Request → Prop) : Prop where
  within : ∀ {s}, P s → Q s
  ended : ∀ {s}, Q s → P s.endEvent
  unmarked : ∀ {s}, P s → P s.nextEvent
  chosen : ∀ {s} n, P s → P { s with choices := n }
  chosenWithin : ∀ {s} n, Q s → Q { s with choices := n }
  linked : ∀ {s} p l, P s → P (s.updPort p fun x => { x with link := l })
  delivered : ∀ {s} p h, P s → P (s.updPort p (PortState.delivered h))
  flagged : ∀ {s} p, Q s → Q (s.updPort p fun x => { x with ferr := true })
  dropped : ∀ {s} p, Q s → Q (s.updPort p fun x => { x with drop := true })
  counted : ∀ {s} x m p, Q s → Q (s.statEvent x m p)
  queued : ∀ {s p r}, Q s → ok r → (s.port p).requests.length < (s.port p).depth.frames →
    Q (s.updPort p fun x => { x with requests := x.requests ++ [r] })
  waiting : ∀ {s p r}, P s → r ∈ (s.port p).requests → ok r
  taken : ∀ {s p n r}, P s → s.canTake p = true → (s.port p).requests[n]? = some r → ok r →
    Q ((s.updPort p fun x => { x with requests := x.requests.eraseIdx n }).serve p r)
  cleared : ∀ {s} p, Q s → Q ((s.updPort p PortState.cleared).resetBehind p)
  emptied : ∀ {s} p, Q s → Q (s.emptySet p)

section
variable {P Q : State → Prop} {ok : Request → Prop} {s t : State} {p : Port}

theorem Kept.takeOne (k : Kept P Q ok) (h : P s) (able : s.canTake p = true) : P (s.takeOne p) := by
  unfold State.takeOne
  simp only
  split
  · exact h
  · next r here => exact k.ended (k.taken h able here (k.waiting h (List.mem_of_getElem? here)))

theorem Kept.pump (k : Kept P Q ok) (n : Nat) (h : P s) : P (s.pump n) := by
  induction n generalizing s with
  | zero => exact h
  | succ n ih =>
    have able : ∀ q ∈ allPorts.filter s.canTake, s.canTake q = true := fun q m => (List.mem_filter.1 m).2
    unfold State.pump
    cases ready : allPorts.filter s.canTake with
    | nil => exact h
    | cons p rest =>
      rw [ready] at able
      cases rest with
      | nil => exact ih (k.takeOne h (able p (by simp)))
      | cons q rest =>
        refine ih (k.takeOne (k.chosen _ h) (able _ ?_))
        rw [List.getD_eq_getElem?_getD, List.getElem?_eq_getElem (Nat.mod_lt _ (by simp))]
        exact List.getElem_mem _

theorem Kept.runHandlers (k : Kept P Q ok) (h : P s) : P s.runHandlers := k.pump _ h

theorem Kept.enqueue (k : Kept P Q ok) {r : Request} (h : Q s) (hr : ok r) : Q (s.enqueue p r) := by
  unfold State.enqueue
  simp only
  split
  · next room => exact k.queued h hr room
  · exact k.counted _ _ _ (k.dropped p h)

theorem Kept.filterOne (k : Kept P Q ok) (h : Q s) (kind tag : Byte) (n : Fin 2) : Q (s.filterOne p kind tag n) := by
  unfold State.filterOne
  split
  · exact k.counted _ _ _ h
  · exact h

theorem Kept.filterFrame (k : Kept P Q ok) (h : Q s) (kind tag : Byte) : Q (s.filterFrame p kind tag) := by
  unfold State.filterFrame
  exact together_inv (P := Q) (fun _ n => k.chosenWithin n) (fun _ n _ ht => k.filterOne ht kind tag n) s h

theorem Kept.portReset (k : Kept P Q ok) (h : Q s) (tag : Byte) : Q (s.portReset p tag) := by
  refine together_inv (fun _ n => k.chosenWithin n) (fun t x _ ht => ?_) s h
  cases x with
  | filter n => exact k.filterOne ht _ _ n
  | clears => exact k.cleared p ht
  | empties => exact k.emptied p ht

theorem Kept.judgeHalf (k : Kept P Q ok) {half : BitVec 112} (h : Q s) (hr : ok (Request.ofHalf half)) :
    Q (s.judgeHalf p half) := by
  unfold State.judgeHalf
  split
  · exact k.counted _ _ _ (k.flagged p h)
  · simp only
    split
    · exact k.filterFrame h _ _
    · split
      · exact k.portReset h _
      · split
        · exact k.enqueue (k.filterFrame h _ _) hr
        · exact k.enqueue h hr

theorem Kept.completeFrame (k : Kept P Q ok) {half : BitVec 112} (h : P s) (a : AnswerHalf)
    (hr : ok (Request.ofHalf half)) : P (s.completeFrame p a half) :=
  k.runHandlers (k.ended (k.judgeHalf (k.within (k.runHandlers (k.delivered p a (k.unmarked h)))) hr))

theorem Kept.breakFrame (k : Kept P Q ok) (h : P s) : P (s.breakFrame p) := by
  have flagged := k.counted .frameError 0 p (k.flagged p (k.within (k.linked p .idle (k.unmarked h))))
  rw [updPort_updPort] at flagged
  exact k.ended flagged

theorem Kept.request (k : Kept P Q ok) {r : Request} (h : P s) (hr : ok r) : P (s.request p r) :=
  k.runHandlers (k.ended (k.enqueue (k.within (k.unmarked h)) hr))

/-- A law kept by the parts of the commands is kept by every command but POWER_ON, where what a run's start and its
publication make of it is given. -/
theorem Kept.keeps_exec (k : Kept P Q ok) {c : Instr} (power : ∀ selected, c ≠ .powerOn selected)
    (hc : ∀ p r, incoming c = some (p, r) → ok r)
    (start : c = .timerExpiry → s.engine.run = .running → Q s.startRun)
    (publish : ∀ run, c = .publication → s.engine.run = .inFlight run →
      Q (s.publish (resultOf run s.engine.queues s.published)))
    (h : P s) (e : exec c s = .next t) : P t := by
  cases c
  case powerOn selected => exact absurd rfl (power selected)
  case frameStart p =>
    obtain rfl : s.beginFrame p = t := Host.Outcome.next.inj e
    unfold State.beginFrame
    split
    · exact k.linked p _ (k.unmarked h)
    · exact h
    · exact h
  case frameComplete p half =>
    have hr := hc p _ rfl
    simp only [exec, execFrameComplete] at e
    split at e <;> obtain rfl := Host.Outcome.next.inj e
    · exact k.completeFrame h _ hr
    · exact k.completeFrame h _ hr
    · exact k.linked p _ (k.unmarked h)
  case framingError p =>
    simp only [exec, execFramingError] at e
    split at e <;> obtain rfl := Host.Outcome.next.inj e
    · exact k.breakFrame h
    · exact k.breakFrame h
    · exact k.linked p _ (k.unmarked h)
  case timerExpiry =>
    simp only [exec, execTimerExpiry] at e
    split at e <;> obtain rfl := Host.Outcome.next.inj e
    · next running => exact k.ended (start rfl running)
    · exact h
    · exact h
  case publication =>
    simp only [exec, execPublication] at e
    split at e <;> obtain rfl := Host.Outcome.next.inj e
    · next run flight => exact k.runHandlers (k.ended (publish run rfl flight))
    · exact h
    · exact h
  all_goals
    obtain rfl := Host.Outcome.next.inj e
    exact k.request h (hc _ _ rfl)

/-- A law that reads neither the ports nor the router nor the model's own fields has only the statistics, the services
and what stands behind a port to fear. -/
theorem Kept.of_blocks (congr : ∀ {s t : State}, P s → s.SameBlocks t → P t)
    (counted : ∀ {s} x m p, P s → P (s.statEvent x m p)) (ends : ∀ {s} p b, P s → P (s.takingEnds p b))
    (served : ∀ {s} p r, P s → P (serveBody s p r).1) (behind : ∀ {s} p, P s → P (s.resetBehind p)) :
    Kept P P fun _ => True where
  within h := h
  ended h := congr h ⟨by simp, by simp, by simp, by simp, by simp, by simp, by simp, by simp⟩
  unmarked h := congr h ⟨rfl, rfl, rfl, rfl, rfl, rfl, rfl, rfl⟩
  chosen _ h := congr h ⟨rfl, rfl, rfl, rfl, rfl, rfl, rfl, rfl⟩
  chosenWithin _ h := congr h ⟨rfl, rfl, rfl, rfl, rfl, rfl, rfl, rfl⟩
  linked _ _ h := congr h (updPort_sameBlocks ..)
  delivered _ _ h := congr h (updPort_sameBlocks ..)
  flagged _ h := congr h (updPort_sameBlocks ..)
  dropped _ h := congr h (updPort_sameBlocks ..)
  counted := counted
  queued h _ _ := congr h (updPort_sameBlocks ..)
  waiting _ _ := trivial
  taken h _ _ _ := by
    rw [serve_eq]
    exact congr (served _ _ (ends _ _ (congr h (updPort_sameBlocks ..)))) (updPort_sameBlocks ..)
  cleared p h := behind p (congr h (updPort_sameBlocks ..))
  emptied _ h := congr h ⟨rfl, rfl, rfl, rfl, rfl, rfl, rfl, rfl⟩

/-- A law kept by every command is kept by every step. -/
theorem Kept.keeps_step (k : Kept P Q fun _ => True) (pending : ∀ {s} l, P s → P { s with pending := l })
    (power : ∀ {s selected t}, P s → exec (.powerOn selected) s = .next t → P t)
    (start : ∀ {s}, P s → s.engine.run = .running → Q s.startRun)
    (publish : ∀ {s run}, P s → s.engine.run = .inFlight run →
      Q (s.publish (resultOf run s.engine.queues s.published)))
    (h : P s) (e : step s = .next t) : P t := by
  unfold step at e
  split at e
  · obtain rfl := Host.Outcome.next.inj e
    exact h
  · next c rest _ =>
    by_cases on : ∃ selected, c = .powerOn selected
    · obtain ⟨selected, rfl⟩ := on
      exact power (pending rest h) e
    · exact k.keeps_exec (fun selected same => on ⟨selected, same⟩) (fun _ _ _ => trivial)
        (fun _ => start (pending rest h)) (fun run _ => publish (pending rest h)) (pending rest h) e

end

end Sys2Proof.Machine

/-! PROOFS. The Envelope Engine's laws: the extremum queues hold exactly the survivors of their windows, and every step
keeps that, the numbering of the intervals and the ranges of the parameters. -/

namespace Sys2Proof.Machine

/-! ### The survivors of a window (R18, R20) -/

/-- What R18 needs of a domination: a value that survives one that survives a third survives the third. -/
def Chained (dominated : Nat → Nat → Bool) : Prop :=
  ∀ u v w, dominated u v = false → dominated v w = false → dominated u w = false

theorem minDominated_chained : Chained minDominated := fun u v w => by
  simp only [minDominated, decide_eq_false_iff_not]
  omega

theorem maxDominated_chained : Chained maxDominated := fun u v w => by
  simp only [maxDominated, decide_eq_false_iff_not]
  omega

section
variable {dominated : Nat → Nat → Bool}

/-- An older survivor is dominated by no newer one. -/
theorem survivors_pairwise (window : List HistEntry) :
    (survivors dominated window).Pairwise fun x y => dominated x.value y.value = false := by
  induction window with
  | nil => exact .nil
  | cons e older ih =>
    rw [survivors, List.pairwise_append]
    refine ⟨ih.filter _, List.pairwise_singleton .., fun x hx y hy => ?_⟩
    rw [List.mem_singleton.1 hy]
    simpa using (List.mem_filter.1 hx).2

theorem mem_survivors_number {window : List HistEntry} {x : QueueEntry} (h : x ∈ survivors dominated window) :
    ∃ e ∈ window, x = { number := e.number, value := e.sample } := by
  induction window with
  | nil => cases h
  | cons e older ih =>
    rw [survivors, List.mem_append, List.mem_singleton] at h
    rcases h with old | rfl
    · obtain ⟨e', mem, same⟩ := ih (List.mem_filter.1 old).1
      exact ⟨e', List.mem_cons_of_mem _ mem, same⟩
    · exact ⟨e, List.mem_cons_self .., rfl⟩

/-- In a queue in which no newer entry dominates an older one, removing from the back while the new sample dominates
removes every entry that it dominates (R19). -/
theorem dropWhile_back_eq_filter (chained : Chained dominated) (p : Nat) {q : List QueueEntry}
    (h : q.Pairwise fun x y => dominated x.value y.value = false) :
    (q.reverse.dropWhile fun e => dominated e.value p).reverse = q.filter fun e => !dominated e.value p := by
  induction q using List.reverseRecOn with
  | nil => rfl
  | append_singleton q e ih =>
    rw [List.pairwise_append] at h
    obtain ⟨older, -, newest⟩ := h
    rw [List.reverse_append, List.reverse_singleton, List.singleton_append, List.dropWhile_cons]
    cases dom : dominated e.value p with
    | true => rw [if_pos rfl, ih older]; simp [dom]
    | false =>
      have kept : q.filter (fun e => !dominated e.value p) = q := List.filter_eq_self.2 fun x hx => by
        rw [chained _ _ _ (newest x hx e (List.mem_singleton_self e)) dom, Bool.not_false]
      simp [dom, kept]

/-- The oldest sample of a window, where it survives, stands at the front of the queue. -/
theorem survivors_concat (window : List HistEntry) (e : HistEntry) :
    survivors dominated (window ++ [e]) =
        { number := e.number, value := e.sample } :: survivors dominated window ∨
      survivors dominated (window ++ [e]) = survivors dominated window := by
  induction window with
  | nil => exact .inl rfl
  | cons x window ih =>
    simp only [List.cons_append, survivors]
    rcases ih with front | gone
    · rw [front, List.filter_cons]
      split
      · exact .inl rfl
      · exact .inr rfl
    · exact .inr (by rw [gone])

/-! ### One run's update of a queue (R19) -/

/-- The entries of a ring stand in consecutive intervals, the newest in the interval before k (R2). -/
def NumberedUpTo (history : List HistEntry) (k : BitVec 32) : Prop :=
  ∀ a e, history[a]? = some e → e.number = k - 1 - BitVec.ofNat 32 a

/-- The age of the entry at place a against run k is one more than its place. -/
theorem entryAge_of_numbered {history : List HistEntry} {k : BitVec 32} {a : Nat} {e : HistEntry}
    (numbered : NumberedUpTo history k) (place : history[a]? = some e) (small : a < 600) (v : Nat) :
    entryAge k { number := e.number, value := v } = a + 1 := by
  have number := numbered a e place
  simp only [entryAge, number]
  have ofNat : (BitVec.ofNat 32 a).toNat = a := by rw [BitVec.toNat_ofNat]; omega
  generalize BitVec.ofNat 32 a = b at ofNat
  have : k - (k - 1 - b) = b + 1 := by bv_omega
  rw [this, BitVec.toNat_add, ofNat]
  simp
  omega

/-- Expiry at the front leaves the survivors of the window one interval shorter. -/
theorem dropWhile_expired {history : List HistEntry} {k : BitVec 32} (numbered : NumberedUpTo history k) {n : Nat}
    (small : n < 600) :
    (survivors dominated (history.take (n + 1))).dropWhile (fun e => decide (n + 1 ≤ entryAge k e)) =
      survivors dominated (history.take n) := by
  have fresh : ∀ x ∈ survivors dominated (history.take n), ¬ n + 1 ≤ entryAge k x := by
    intro x hx
    obtain ⟨e, mem, rfl⟩ := mem_survivors_number hx
    obtain ⟨a, place⟩ := List.mem_iff_getElem?.1 mem
    rw [List.getElem?_take, Option.ite_none_right_eq_some] at place
    obtain ⟨lt, place⟩ := place
    rw [entryAge_of_numbered numbered place (by omega)]
    omega
  have none_dropped : (survivors dominated (history.take n)).dropWhile (fun e => decide (n + 1 ≤ entryAge k e)) =
      survivors dominated (history.take n) := by
    cases q : survivors dominated (history.take n) with
    | nil => rfl
    | cons x q' =>
      have young := fresh x (q ▸ List.mem_cons_self ..)
      rw [List.dropWhile_cons, if_neg (by simpa using young)]
  rw [List.take_add_one]
  cases place : history[n]? with
  | none => simpa using none_dropped
  | some e =>
    have expired := entryAge_of_numbered numbered place small e.sample
    simp only [Option.toList_some]
    rcases survivors_concat (dominated := dominated) (history.take n) e with front | gone
    · rw [front, List.dropWhile_cons, expired, if_pos (by simp)]
      exact none_dropped
    · rw [gone]
      exact none_dropped

/-- A queue that holds its window's survivors holds them after the next run too. -/
theorem updateQueue_survivors (chained : Chained dominated) {history : List HistEntry} {e : HistEntry}
    (numbered : NumberedUpTo history e.number) {n : Nat} (one : 1 ≤ n) (small : n ≤ 600) :
    updateQueue dominated n e.number e.sample (survivors dominated (history.take n)) =
      survivors dominated ((e :: history).take n) := by
  obtain ⟨m, rfl⟩ := Nat.exists_eq_add_of_le' one
  unfold updateQueue
  simp only
  rw [dropWhile_expired numbered (by omega), dropWhile_back_eq_filter chained _ (survivors_pairwise _),
    List.take_succ_cons, survivors]

end

theorem take_pushHistory {n : Nat} (small : n ≤ historyLength) (history : List HistEntry) (e : HistEntry) :
    (pushHistory history e).take n = (e :: history).take n := by
  rw [pushHistory, List.take_take, Nat.min_eq_left small]

/-- The four queues hold their windows' survivors after the next run (R18, R19). -/
theorem updateExtrema_windowExtrema {x y : Params} (wf : y.Wf) (short : x.winShort = y.winShort)
    (long : x.winLong = y.winLong) {history : List HistEntry} {e : HistEntry}
    (numbered : NumberedUpTo history e.number) :
    updateExtrema x e.number e.sample (windowExtrema y history) = windowExtrema y (pushHistory history e) := by
  obtain ⟨two, -, le, top⟩ := wf.windows
  have long_le : y.winLong ≤ historyLength := top
  have short_le : y.winShort ≤ historyLength := by omega
  have one_short : 1 ≤ y.winShort := by omega
  have one_long : 1 ≤ y.winLong := by omega
  simp only [updateExtrema, windowExtrema, short, long, take_pushHistory short_le, take_pushHistory long_le,
    updateQueue_survivors minDominated_chained numbered one_short short_le,
    updateQueue_survivors maxDominated_chained numbered one_short short_le,
    updateQueue_survivors minDominated_chained numbered one_long long_le,
    updateQueue_survivors maxDominated_chained numbered one_long long_le]

/-! ### The ranges of the parameters (R175, R176) -/

theorem nearestInterval_mem (v : Nat) : nearestInterval v ∈ [100, 200, 250, 500, 1000] := by
  unfold nearestInterval
  (repeat' split) <;> decide

theorem writeMode_wf {x : Params} (h : x.Wf) (index : Nat) (m : MonMode) : (x.writeMode index m).Wf := by
  unfold Params.writeMode
  split <;> exact ⟨h.1, h.2, h.3, h.4, h.5, h.6, h.7, h.8, h.9, h.10, h.11, h.12, h.13, h.14, h.15, h.16⟩

/-- What URGENT stores names a kind, and stands in no other position (R171). -/
theorem urgentStored_some {urgent : Vector (Option Byte) 8} {n : Fin 8} {v : Nat} {k : Byte}
    (h : urgentStored urgent n v = some k) : kindDefined k = true ∧ ∀ m, look urgent m = some k → m = n := by
  unfold urgentStored at h
  simp only [Bool.and_eq_true, Bool.not_eq_true', Option.ite_none_right_eq_some, Option.some.injEq] at h
  obtain ⟨⟨⟨-, defined⟩, elsewhere⟩, rfl⟩ := h
  refine ⟨defined, fun m here => by_contra fun other => ?_⟩
  rw [List.any_eq_false] at elsewhere
  exact elsewhere m (List.mem_finRange m) (by simp [other, here])

theorem urgent_wf {x : Params} (h : x.Wf) (n : Fin 8) (v : Nat) :
    ({ x with urgent := put x.urgent n (urgentStored x.urgent n v) } : Params).Wf where
  interval := h.interval
  windows := h.windows
  limits := h.limits
  rating := h.rating
  recovery := h.recovery
  charge := h.charge
  tolerances := h.tolerances
  freeze := h.freeze
  reports := h.reports
  overshoot := h.overshoot
  plausibility := h.plausibility
  cap := h.cap
  deadline := h.deadline
  step := h.step
  urgentOnce i j k hi hj := by
    simp only [look_put] at hi hj
    split at hi <;> split at hj
    · next a b => exact a.symm.trans b
    · next a _ => exact a.symm.trans ((urgentStored_some hi).2 j hj).symm
    · next _ b => exact ((urgentStored_some hj).2 i hi).trans b
    · exact h.urgentOnce i j k hi hj
  urgentKinds i k hi := by
    simp only [look_put] at hi
    split at hi
    · exact (urgentStored_some hi).1
    · exact h.urgentKinds i k hi

/-- Every write stores a value in its range, and keeps the pairs in order (R175, R176). -/
theorem storeParam_wf {s : State} (h : s.params.Wf) (id index : Nat) (value : BitVec 32) :
    (storeParam s id index value).params.Wf := by
  obtain ⟨interval, windows, limits, rating, recovery, charge, tolerances, freeze, reports, overshoot, plausibility, cap,
    deadline, step, once, kinds⟩ := show s.params.Wf from h
  unfold storeParam
  simp only
  split
  case h_26 => exact writeMode_wf h _ _
  case h_30 =>
    split
    · exact urgent_wf h _ _
    · exact h
  case h_17 => split <;> exact h
  case h_18 => split <;> simpa using h
  case h_29 => split <;> simpa using h
  case h_31 => split <;> exact h
  case h_28 =>
    rw [(evalReadyAll_frame _).1]
    exact ⟨interval, windows, limits, rating, recovery, charge, tolerances, freeze, reports, overshoot, plausibility, cap,
      deadline, by simp [nearest], once, kinds⟩
  case h_1 =>
    exact ⟨nearestInterval_mem _, windows, limits, rating, recovery, charge, tolerances, freeze, reports, overshoot,
      plausibility, cap, deadline, step, once, kinds⟩
  all_goals
    constructor
    all_goals simp only [setParams_params, nearest]
    all_goals first | assumption | omega

/-! ### The laws of the engine -/

theorem State.EngineWf.congr {s t : State} (h : s.EngineWf) (params : t.params = s.params) (engine : t.engine = s.engine) :
    t.EngineWf := by
  have halted : t.halted = s.halted := halted_congr engine
  exact
    { params := params ▸ h.params, length := engine ▸ h.length, numbered := engine ▸ h.numbered
      running := engine ▸ h.running, inFlight := params ▸ engine ▸ h.inFlight
      windows := by rw [halted, engine, params]; exact h.windows }

/-- A write of the parameters that leaves the windows as they are, or meets a halted engine. -/
theorem State.EngineWf.setParams {s t : State} (h : s.EngineWf) (wf : t.params.Wf) (engine : t.engine = s.engine)
    (windows : s.halted = true ∨
      (t.params.winShort = s.params.winShort ∧ t.params.winLong = s.params.winLong)) : t.EngineWf := by
  have halted : t.halted = s.halted := halted_congr engine
  refine
    { params := wf, length := engine ▸ h.length, numbered := engine ▸ h.numbered, running := engine ▸ h.running
      inFlight := fun run flight => ?_, windows := fun unhalted => ?_ }
  · rw [engine] at flight ⊢
    obtain ⟨counter, short, long, newest⟩ := h.inFlight run flight
    rcases windows with stopped | ⟨sameShort, sameLong⟩
    · simp [State.halted, flight] at stopped
    · exact ⟨counter, short.trans sameShort.symm, long.trans sameLong.symm, newest⟩
  · rcases windows with stopped | ⟨sameShort, sameLong⟩
    · rw [halted, stopped] at unhalted
      cases unhalted
    · rw [halted] at unhalted
      simp only [engine, h.windows unhalted, windowExtrema, sameShort, sameLong]

theorem storeParam_windows {s : State} {id index : Nat} {value : BitVec 32} (short : id ≠ 2) (long : id ≠ 3) :
    (storeParam s id index value).params.winShort = s.params.winShort ∧
      (storeParam s id index value).params.winLong = s.params.winLong := by
  unfold storeParam
  simp only
  split
  case h_2 => exact absurd rfl short
  case h_3 => exact absurd rfl long
  case h_26 =>
    unfold Params.writeMode
    split <;> exact ⟨rfl, rfl⟩
  case h_18 => split <;> simp
  case h_28 => simp
  case h_29 => split <;> simp
  case h_17 => split <;> exact ⟨rfl, rfl⟩
  case h_30 => split <;> exact ⟨rfl, rfl⟩
  case h_31 => split <;> exact ⟨rfl, rfl⟩
  all_goals exact ⟨rfl, rfl⟩

/-- What PARAM-SET leaves: nothing changed, or a store that R175 lets through, the windows' lengths only while
HALTED. -/
theorem serveParamSet_cases (s : State) (id index : Byte) (value : BitVec 32) :
    (serveParamSet s id index value).1 = s ∨
      ((paramHaltedOnly id.toNat = true → s.halted = true) ∧
        (id.toNat = 17 → ratingWritable s index.toNat = true) ∧
        (serveParamSet s id index value).1 = storeParam s id.toNat index.toNat value) := by
  unfold serveParamSet
  (repeat' split) <;> simp_all

theorem serveParamSet_engineWf {s : State} (h : s.EngineWf) (id index : Byte) (value : BitVec 32) :
    (serveParamSet s id index value).1.EngineWf := by
  rcases serveParamSet_cases s id index value with same | ⟨haltedOnly, -, store⟩
  · rw [same]
    exact h
  · rw [store]
    refine h.setParams (storeParam_wf h.params _ _ _) (by simp) ?_
    by_cases window : id.toNat = 2 ∨ id.toNat = 3
    · exact .inl (haltedOnly (by rcases window with e | e <;> rw [e] <;> rfl))
    · exact .inr (storeParam_windows (not_or.1 window).1 (not_or.1 window).2)

/-- The meter slot is no part of the engine's laws. -/
theorem serveMeter_engineWf {s : State} (h : s.EngineWf) (value : BitVec 32) (tag : BitVec 16) :
    (serveMeter s value tag).1.EngineWf := by
  unfold serveMeter
  split
  · exact h
  split
  · exact h
  · exact ⟨h.params, h.length, h.numbered, h.running, h.inFlight, h.windows⟩

/-- The engine of a state that ENG-START has started: RUNNING from interval 0 with nothing in its history (R10). -/
theorem startEngine_engine (s : State) : s.startEngine.engine =
    { run := .running, timer := .running s.params.interval, counter := 0, meter := none, history := [],
      queues := Extrema.empty } := by
  simp [State.startEngine]

theorem serveEngStart_engineWf {s : State} (h : s.EngineWf) : (serveEngStart s).1.EngineWf := by
  unfold serveEngStart
  split
  · refine
      { params := by simpa [State.startEngine] using h.params, length := ?_, numbered := ?_, running := ?_
        inFlight := ?_, windows := fun _ => ?_ } <;> simp only [startEngine_engine]
    · exact Nat.zero_le _
    · exact fun a e newest place => by cases place
    · exact fun _ newest place => by cases place
    · exact fun run flight => by cases flight
    · simp [Extrema.empty, windowExtrema, survivors]
  · exact h

/-- A halt keeps the counter, the history and the queues (R9). -/
theorem haltEngine_engine (s : State) :
    s.haltEngine.engine = { s.engine with run := .halted, timer := .stopped, meter := none } := by
  simp [State.haltEngine, State.stopEngine]

theorem serveEngHalt_engineWf {s : State} (h : s.EngineWf) : (serveEngHalt s).1.EngineWf := by
  unfold serveEngHalt
  simp only
  split
  · exact h
  · refine
      { params := by simpa [State.haltEngine, State.stopEngine] using h.params, length := ?_, numbered := ?_
        running := ?_, inFlight := ?_, windows := fun unhalted => ?_ } <;>
      simp only [State.halted, haltEngine_engine] at *
    · exact h.length
    · exact h.numbered
    · exact fun running => by cases running
    · exact fun run flight => by cases flight
    · cases unhalted

theorem supervisorOnly_cases (p : Port) (s : State) (x : State × Reply) :
    (supervisorOnly p s x).1 = s ∨ (p = supervisorPort ∧ supervisorOnly p s x = answered x) := by
  unfold supervisorOnly
  split
  · next role =>
    refine .inr ⟨?_, rfl⟩
    revert p
    decide
  · exact .inl rfl

/-- A law that a request's block keeps is kept by the request, whatever the port's role. -/
theorem supervisorOnly_keeps {P : State → Prop} {s : State} {x : State × Reply} (h : P s) (hx : P x.1) (p : Port) :
    P (supervisorOnly p s x).1 := by
  rcases supervisorOnly_cases p s x with same | ⟨-, same⟩ <;> rw [same]
  · exact h
  · exact hx

theorem serveBody_engineWf {s : State} (h : s.EngineWf) (p : Port) (r : Request) : (serveBody s p r).1.EngineWf := by
  obtain ⟨tag, body⟩ := r
  cases body
  case paramSet id index value => exact supervisorOnly_keeps h (serveParamSet_engineWf h id index value) p
  case meter value tag => exact supervisorOnly_keeps h (serveMeter_engineWf h value tag) p
  case engStart => exact supervisorOnly_keeps h (serveEngStart_engineWf h) p
  case engHalt => exact supervisorOnly_keeps h (serveEngHalt_engineWf h) p
  all_goals
    refine h.congr ?_ ?_ <;> simp only [serveBody, supervisorOnly] <;>
      (repeat' split) <;> simp [answered, roleRefused]

theorem engineKept : Kept State.EngineWf State.EngineWf fun _ => True :=
  .of_blocks (fun h same => h.congr same.params same.engine) (fun x m p h => h.congr (by simp) (by simp))
    (fun p b h => h.congr (by simp) (by simp)) (fun p r h => serveBody_engineWf h p r)
    (fun p h => h.congr (by simp) (by simp))

/-- The tables as a run's start leaves them (R59, R60, R97). -/
def State.aged (s : State) : State := s.ageStations.ageStorage

/-- The inputs that a run fixes at its start (R4), where `shown` are the states that its snapshot shows. -/
def State.inputs (s : State) (shown : Vector StationState 10) : RunInputs :=
  { number := s.engine.counter, stations := s.aged.stationSnapshot shown, storage := s.aged.storageSnapshot,
    params := s.params, meter := s.engine.meter }

/-- A run's start ages the tables, puts the run on its inputs and counts the interval on (R2, R4). -/
theorem startRun_eq (s : State) : ∃ n, s.startRun =
    { s.aged with
      params := s.params
      engine :=
        { s.engine with
          run := .inFlight (s.inputs (s.snapshotStates s.aged).1), counter := s.engine.counter + 1, meter := none }
      choices := n, lastClear := none } := by
  obtain ⟨n, aged⟩ := snapshotStates_choices s s.ageStations.ageStorage
  have engine : s.ageStations.ageStorage.engine = s.engine := by simp
  have params : s.ageStations.ageStorage.params = s.params := by simp
  refine ⟨n, ?_⟩
  simp only [State.startRun, aged, engine, params]
  rfl

theorem startRun_engineWf {s : State} (h : s.EngineWf) (running : s.engine.run = .running) : s.startRun.EngineWf := by
  have params : s.startRun.params = s.params := by simp
  obtain ⟨n, started⟩ := startRun_eq s
  have engine := congrArg State.engine started
  refine
    { params := params ▸ h.params, length := engine ▸ h.length, numbered := engine ▸ h.numbered
      running := fun landed => ?_, inFlight := fun run flight => ?_, windows := fun _ => ?_ }
  · rw [engine] at landed
    cases landed
  · rw [engine] at flight
    obtain rfl : s.inputs (s.snapshotStates s.aged).1 = run := RunState.inFlight.inj flight
    rw [engine, params]
    exact ⟨rfl, rfl, rfl, h.running running⟩
  · rw [engine, params]
    exact h.windows (by simp only [State.halted, running])

/-- A publication commits the run to the history, the queues and the record; its actions after that leave the engine
alone (R6). -/
theorem publish_engine (s : State) (x : RunResult) : (s.publish x).engine =
    { s.engine with
      run := .running, history := pushHistory s.engine.history x.entry, queues := x.queues } := by
  simp [State.publish, State.commitRun]

theorem publish_engineWf {s : State} {run : RunInputs} (h : s.EngineWf) (flight : s.engine.run = .inFlight run) :
    (s.publish (resultOf run s.engine.queues s.published)).EngineWf := by
  have params := (publish_frame s (resultOf run s.engine.queues s.published)).1
  have engine := publish_engine s (resultOf run s.engine.queues s.published)
  obtain ⟨counter, short, long, newest⟩ := h.inFlight run flight
  have numbered : NumberedUpTo s.engine.history run.number := by
    intro a e place
    obtain ⟨first, front⟩ : ∃ first, s.engine.history.head? = some first := by
      cases history : s.engine.history with
      | nil => rw [history] at place; cases place
      | cons x xs => exact ⟨x, rfl⟩
    rw [h.numbered a e first place front, newest first front, BitVec.add_sub_cancel]
  refine
    { params := by rw [params]; exact h.params, length := ?_, numbered := ?_, running := ?_, inFlight := ?_
      windows := ?_ } <;>
    simp only [State.halted, engine, params]
  · exact List.length_take_le _ _
  · intro a e first place front
    obtain rfl : (resultOf run s.engine.queues s.published).entry = first := Option.some.inj front
    cases a with
    | zero => cases place; simp
    | succ a =>
      rw [pushHistory, List.getElem?_take, Option.ite_none_right_eq_some, List.getElem?_cons_succ] at place
      have next : BitVec.ofNat 32 (a + 1) = 1 + BitVec.ofNat 32 a := by rw [BitVec.ofNat_add, BitVec.add_comm]; rfl
      rw [numbered a e place.2, BitVec.sub_sub, next]
      rfl
  · rintro - first front
    obtain rfl : (resultOf run s.engine.queues s.published).entry = first := Option.some.inj front
    exact counter
  · exact fun _ landed => by cases landed
  · intro _
    have before := h.windows (by simp only [State.halted, flight])
    rw [before]
    exact updateExtrema_windowExtrema (e := (resultOf run s.engine.queues s.published).entry) h.params short long
      numbered

theorem powerOn_eq {s t : State} {selected : BitVec 12} (e : exec (.powerOn selected) s = .next t) :
    t =
      { State.reset with
        ports := tabulate fun p : Port =>
          { PortState.reset with link := if selected.getLsbD p.val then .awaitRelease else .idle }
        choices := s.choices
        pending := s.pending } :=
  (Host.Outcome.next.inj e).symm

theorem default_wf : Params.default.Wf := by
  constructor <;> decide

theorem reset_engineWf : State.reset.EngineWf where
  params := default_wf
  length := Nat.zero_le _
  numbered a e newest place := by cases place
  running landed := by cases landed
  inFlight run flight := by cases flight
  windows unhalted := by cases unhalted

/-- Settles O58: the parts of the commands keep the engine's laws (`engineKept`), and so do a run's start and its
publication, where each queue goes from the survivors of one window to those of the next
(`updateQueue_survivors`). -/
theorem engineLawsKept : Obligations.EngineLawsKept := fun _ _ h e =>
  engineKept.keeps_step (fun _ h => h.congr rfl rfl)
    (fun _ e => (powerOn_eq e) ▸ reset_engineWf.congr rfl rfl)
    startRun_engineWf publish_engineWf h e

end Sys2Proof.Machine

/-! PROOFS. The ports' laws: bounded queues, and a handler that stays BUSY while the take it took is held. -/

namespace Sys2Proof.Machine

/-! ### The roles of the ports -/

theorem stationPort_injective {i j : StationId} (h : stationPort i = stationPort j) : i = j :=
  Fin.ext (Fin.mk.inj h)

theorem stationPort_ne_storagePort (i : StationId) : stationPort i ≠ storagePort := by
  revert i
  decide

theorem stationPort_ne_supervisorPort (i : StationId) : stationPort i ≠ supervisorPort := by
  revert i
  decide

theorem roleOf_eq_station {p : Port} {i : StationId} (h : roleOf p = .station i) : p = stationPort i := by
  unfold roleOf at h
  split at h
  · cases h
    rfl
  · split at h <;> cases h

theorem roleOf_eq_storage {p : Port} (h : roleOf p = .storage) : p = storagePort := by
  revert p
  decide

theorem roleOf_eq_supervisor {p : Port} (h : roleOf p = .supervisor) : p = supervisorPort := by
  revert p
  decide

/-! ### The laws of one port and of the held takes -/

/-- The bounds of one port (R168, R169): a BUSY handler keeps room for the answer of its held take. -/
structure PortState.Bounded (x : PortState) : Prop where
  requests : x.requests.length ≤ x.depth.frames
  replies : x.replies.length ≤ replyRoom
  busyRoom : x.handler = .busy → x.replies.length < replyRoom

/-- The laws of twelve ports, of the stations whose takes are held and of a held dispatch take: `State.PortsWf` on the
parts of the state that it reads. -/
structure PortLaws (ports : Port → PortState) (held : List StationId) (dispatch : Bool) : Prop where
  bounded : ∀ p, (ports p).Bounded
  once : held.Nodup
  busy : ∀ i ∈ held, (ports (stationPort i)).handler = .busy
  dispatchBusy : dispatch = true → (ports storagePort).handler = .busy

/-- The ports with one port replaced. -/
def onPort (ports : Port → PortState) (p : Port) (x : PortState) (q : Port) : PortState :=
  if p = q then x else ports q

theorem portsWf_iff (s : State) :
    s.PortsWf ↔ PortLaws s.port (s.heldTakes.map HeldTake.station) s.storage.held.isSome := by
  constructor
  · intro h
    refine ⟨fun p => ⟨h.requestBound p, h.replyBound p, h.busyRoom p⟩, h.heldOnce, fun i mem => ?_, h.dispatchBusy⟩
    obtain ⟨k, held, rfl⟩ := List.mem_map.1 mem
    exact h.heldBusy k held
  · intro h
    exact ⟨fun p => (h.bounded p).requests, fun p => (h.bounded p).replies, fun p => (h.bounded p).busyRoom, h.once,
      fun k mem => h.busy k.station (List.mem_map_of_mem mem), h.dispatchBusy⟩

theorem State.PortsWf.congr {s t : State} (h : s.PortsWf) (ports : t.ports = s.ports)
    (held : t.heldTakes = s.heldTakes) (dispatch : t.storage.held = s.storage.held) : t.PortsWf := by
  have port : t.port = s.port := funext (port_congr ports)
  rw [portsWf_iff] at h ⊢
  rwa [port, held, dispatch]

theorem port_updPort_eq (s : State) (p : Port) (f : PortState → PortState) :
    (s.updPort p f).port = onPort s.port p (f (s.port p)) := by
  funext q
  simp only [port_updPort, onPort]

section
variable {ports : Port → PortState} {held : List StationId} {dispatch : Bool} {p : Port} {x : PortState}

/-- A port may change within its bounds as long as a handler that is BUSY stays so. -/
theorem PortLaws.change (h : PortLaws ports held dispatch) (bounded : x.Bounded)
    (busy : (ports p).handler = .busy → x.handler = .busy) : PortLaws (onPort ports p x) held dispatch := by
  have stays : ∀ q, (ports q).handler = .busy → (onPort ports p x q).handler = .busy := by
    intro q was
    unfold onPort
    split
    · next same => exact busy (same ▸ was)
    · exact was
  refine ⟨fun q => ?_, h.once, fun i mem => stays _ (h.busy i mem), fun on => stays _ (h.dispatchBusy on)⟩
  unfold onPort
  split
  · exact bounded
  · exact h.bounded q

/-- A port without a held take may change freely within its bounds. -/
theorem PortLaws.replace (h : PortLaws ports held dispatch) (bounded : x.Bounded)
    (station : ∀ i ∈ held, stationPort i ≠ p) (storage : dispatch = true → storagePort ≠ p) :
    PortLaws (onPort ports p x) held dispatch := by
  refine ⟨fun q => ?_, h.once, fun i mem => ?_, fun on => ?_⟩
  · unfold onPort
    split
    · exact bounded
    · exact h.bounded q
  · rw [onPort, if_neg (station i mem).symm]
    exact h.busy i mem
  · rw [onPort, if_neg (storage on).symm]
    exact h.dispatchBusy on

/-- Fewer takes are held. -/
theorem PortLaws.fewer (h : PortLaws ports held dispatch) {fewer : List StationId} (sub : fewer.Sublist held) :
    PortLaws ports fewer dispatch :=
  ⟨h.bounded, h.once.sublist sub, fun i mem => h.busy i (sub.subset mem), h.dispatchBusy⟩

theorem PortLaws.noDispatch (h : PortLaws ports held dispatch) : PortLaws ports held false :=
  ⟨h.bounded, h.once, h.busy, fun on => by cases on⟩

/-- A port whose handler is IDLE has no held take. -/
theorem PortLaws.unheld (h : PortLaws ports held dispatch) (idle : (ports p).handler = .idle) :
    (∀ i ∈ held, stationPort i ≠ p) ∧ (dispatch = true → storagePort ≠ p) := by
  constructor
  · rintro i mem rfl
    rw [h.busy i mem] at idle
    cases idle
  · rintro on rfl
    rw [h.dispatchBusy on] at idle
    cases idle

end

/-- A port that answers (R169): one answer more, and the handler IDLE. -/
theorem PortState.Bounded.answer {x : PortState} (h : x.Bounded) (room : x.replies.length < replyRoom) (a : Answer) :
    ({ x with replies := x.replies ++ [a], handler := .idle } : PortState).Bounded :=
  ⟨h.requests, by simpa using room, fun busy => by cases busy⟩

/-! ### Held takes are answered -/

/-- The answer that a held take is given in a state (R80, R87). -/
def State.takeAnswer (s : State) (h : HeldTake) : Answer :=
  { kind := 4, tag := h.tag, code := (answerTake s h.station).2.code, payload := (answerTake s h.station).2.payload }

theorem answerHeldTake_port (s : State) (h : HeldTake) :
    (s.answerHeldTake h).port = onPort s.port (stationPort h.station)
      { s.port (stationPort h.station) with
        replies := (s.port (stationPort h.station)).replies ++ [s.takeAnswer h], handler := .idle } := by
  have before : (answerTake s h.station).1.port = s.port := funext fun q => port_congr (by simp) q
  have released : (s.answerHeldTake h).port =
      ((answerTake s h.station).1.releaseHeld (stationPort h.station) (s.takeAnswer h)).port := rfl
  rw [released, State.releaseHeld, port_updPort_eq, before]

theorem answerHeldTakes_laws {held : List HeldTake} {dispatch : Bool} {s : State}
    (h : PortLaws s.port (held.map HeldTake.station) dispatch) :
    PortLaws (held.foldl State.answerHeldTake s).port [] dispatch := by
  induction held generalizing s with
  | nil => exact h
  | cons k held ih =>
    refine ih ?_
    rw [answerHeldTake_port]
    have busy := h.busy k.station (List.mem_cons_self ..)
    have room := (h.bounded (stationPort k.station)).busyRoom busy
    have once := List.nodup_cons.1 h.once
    refine (h.fewer (List.sublist_cons_self ..)).replace ((h.bounded _).answer room _) (fun i mem same => ?_)
      fun _ same => stationPort_ne_storagePort _ same.symm
    exact once.1 (stationPort_injective same ▸ mem)

theorem answerHeldTakes_port_other {held : List HeldTake} {q : Port} (h : ∀ k ∈ held, stationPort k.station ≠ q)
    (s : State) : (held.foldl State.answerHeldTake s).port q = s.port q := by
  induction held generalizing s with
  | nil => rfl
  | cons k held ih =>
    rw [List.foldl_cons, ih (fun k' mem => h k' (List.mem_cons_of_mem _ mem)), answerHeldTake_port, onPort,
      if_neg (h k (List.mem_cons_self ..))]

theorem answerHeldDispatch_laws {s : State} (h : PortLaws s.port [] s.storage.held.isSome) :
    PortLaws s.answerHeldDispatch.port [] s.answerHeldDispatch.storage.held.isSome := by
  unfold State.answerHeldDispatch
  split
  · exact h
  · next tag held =>
    rw [held] at h
    have room := (h.bounded storagePort).busyRoom (h.dispatchBusy rfl)
    rw [State.releaseHeld, port_updPort_eq]
    exact h.noDispatch.replace ((h.bounded storagePort).answer room _) (fun i mem => by cases mem) fun on => by cases on

theorem answerHeldTake_heldTakes (s : State) (h : HeldTake) : (s.answerHeldTake h).heldTakes = s.heldTakes := by
  simp [State.answerHeldTake]

theorem answerHeldTakes_heldTakes (s : State) : s.answerHeldTakes.heldTakes = [] := by
  have kept : ∀ (held : List HeldTake) (t : State),
      (held.foldl State.answerHeldTake t).heldTakes = t.heldTakes := by
    intro held
    induction held with
    | nil => exact fun t => rfl
    | cons k held ih => exact fun t => (ih _).trans (answerHeldTake_heldTakes t k)
  exact kept _ _

/-- Answering every held take keeps the ports' laws, and no take is held any more. -/
theorem answerAll_portsWf {s : State} (h : s.PortsWf) : s.answerHeldTakes.evalReadyAll.answerHeldDispatch.PortsWf := by
  have laws := (portsWf_iff s).1 h
  have port : s.answerHeldTakes.evalReadyAll.port =
      (s.heldTakes.foldl State.answerHeldTake (s.setHeldTakes [])).port := funext fun q => by simp [State.answerHeldTakes]
  have none : s.answerHeldTakes.evalReadyAll.answerHeldDispatch.heldTakes = [] := by
    simp [answerHeldTakes_heldTakes]
  have dispatch : s.answerHeldTakes.evalReadyAll.storage = s.storage := by simp
  rw [portsWf_iff, none]
  refine answerHeldDispatch_laws ?_
  rw [port, dispatch]
  exact answerHeldTakes_laws (s := s.setHeldTakes []) laws

theorem publish_portsWf {s : State} (h : s.PortsWf) (x : RunResult) : (s.publish x).PortsWf :=
  answerAll_portsWf (h.congr (by simp) (by simp) (by simp))

theorem haltEngine_portsWf {s : State} (h : s.PortsWf) : s.haltEngine.PortsWf := by
  refine answerAll_portsWf (together_inv (P := State.PortsWf) (fun t n ht => ht.congr rfl rfl rfl) ?_ _ ?_)
  · exact fun t i _ ht => ht.congr (by simp) (by simp) (by simp)
  · exact h.congr (by simp) (by simp) (by simp)

/-! ### Services that leave a held dispatch take alone -/

@[simp] theorem serveStorageJoin_held (s : State) : (serveStorageJoin s).1.storage.held = s.storage.held := by
  unfold serveStorageJoin
  split <;> rfl

@[simp] theorem serveStorageLeave_held (s : State) : (serveStorageLeave s).1.storage.held = s.storage.held := by
  unfold serveStorageLeave
  split <;> simp

@[simp] theorem serveStorTel_held (s : State) (meas : BitVec 32) (soc bdis bchg : BitVec 16) :
    (serveStorTel s meas soc bdis bchg).1.storage.held = s.storage.held := by
  unfold serveStorTel
  (repeat' split) <;> simp [storTelReply]

@[simp] theorem serveEngStart_held (s : State) : (serveEngStart s).1.storage.held = s.storage.held := by
  unfold serveEngStart
  split
  · simp [State.startEngine]
  · rfl

theorem startRun_held (s : State) : s.startRun.storage.held = s.storage.held := by
  obtain ⟨n, started⟩ := startRun_eq s
  have aged : s.ageStations.storage = s.storage := by simp
  rw [started]
  simp only [State.aged, State.ageStorage, aged]
  (repeat' split) <;> simp

/-! ### A taken request -/

theorem updPort_portsWf {s : State} (h : s.PortsWf) {p : Port} {f : PortState → PortState}
    (bounded : (f (s.port p)).Bounded) (busy : (s.port p).handler = .busy → (f (s.port p)).handler = .busy) :
    (s.updPort p f).PortsWf := by
  rw [portsWf_iff] at h ⊢
  rw [port_updPort_eq]
  exact h.change bounded busy

theorem port_bounded {s : State} (h : s.PortsWf) (p : Port) : (s.port p).Bounded := ((portsWf_iff s).1 h).bounded p

theorem writeDepth_portsWf {s : State} (h : s.PortsWf) (p : Port) (v : Nat) : (s.writeDepth p v).PortsWf := by
  have old := port_bounded h p
  have shortened : (s.updPort p fun x =>
      { x with
        depth := Depth.ofValue v, requests := x.requests.take (Depth.ofValue v).frames
        drop := x.drop || decide (0 < (s.port p).requests.length - (Depth.ofValue v).frames) }).PortsWf :=
    updPort_portsWf h ⟨List.length_take_le _ _, old.replies, old.busyRoom⟩ fun busy => busy
  exact shortened.congr (by simp [State.writeDepth]) (by simp [State.writeDepth]) (by simp [State.writeDepth])

theorem storeParam_portsWf {s : State} (h : s.PortsWf) (id index : Nat) (v : BitVec 32) :
    (storeParam s id index v).PortsWf := by
  unfold storeParam
  simp only
  split
  case h_29 => split <;> first | exact writeDepth_portsWf h _ _ | exact h
  all_goals
    refine h.congr ?_ ?_ ?_ <;> (repeat' split) <;> simp

theorem serveParamSet_portsWf {s : State} (h : s.PortsWf) (id index : Byte) (v : BitVec 32) :
    (serveParamSet s id index v).1.PortsWf := by
  rcases serveParamSet_cases s id index v with same | ⟨-, -, store⟩
  · rw [same]
    exact h
  · rw [store]
    exact storeParam_portsWf h _ _ _

/-- Port p can be answered at once: its handler is IDLE and its replies have room (R169). -/
def State.CanAnswer (s : State) (p : Port) : Prop :=
  (s.port p).handler = .idle ∧ (s.port p).replies.length < replyRoom

theorem canAnswer_congr {s t : State} {p : Port} (h : s.CanAnswer p) (ports : t.ports = s.ports) : t.CanAnswer p := by
  rw [State.CanAnswer, port_congr ports]
  exact h

/-- A served request that is answered keeps the laws of what its block left. -/
theorem concluded_portsWf {t : State} {p : Port} (h : t.PortsWf) (can : t.CanAnswer p) (r : Request) (a : Reply) :
    (t.updPort p fun x => x.concluded r (some a)).PortsWf := by
  obtain ⟨idle, room⟩ := can
  refine updPort_portsWf h ⟨(port_bounded h p).requests, ?_, fun busy => ?_⟩ fun busy => ?_
  · simpa [PortState.concluded] using room
  · rw [PortState.concluded, idle] at busy
    cases busy
  · rw [idle] at busy
    cases busy

/-- A ceiling take that is held makes its handler BUSY (R77). -/
theorem hold_portsWf {s : State} {i : StationId} (h : s.PortsWf) (can : s.CanAnswer (stationPort i)) (tag : Byte)
    (r : Request) :
    ((s.setHeldTakes (s.heldTakes ++ [{ station := i, tag := tag }])).updPort (stationPort i)
      fun x => x.concluded r none).PortsWf := by
  rw [portsWf_iff] at h ⊢
  obtain ⟨station, storage⟩ := h.unheld can.1
  have busied := h.replace (p := stationPort i) (x := (s.port (stationPort i)).concluded r none)
    ⟨(h.bounded _).requests, (h.bounded _).replies, fun _ => can.2⟩ station storage
  rw [port_updPort_eq]
  have names : (s.heldTakes ++ [({ station := i, tag := tag } : HeldTake)]).map HeldTake.station =
      s.heldTakes.map HeldTake.station ++ [i] := by simp
  have new : (s.heldTakes.map HeldTake.station ++ [i]).Nodup :=
    List.nodup_append.2 ⟨h.once, List.nodup_singleton i, fun j mem k same => by
      rw [List.mem_singleton.1 same]
      rintro rfl
      exact station j mem rfl⟩
  refine ⟨busied.bounded, by rw [← names] at new; exact new, fun j mem => ?_, busied.dispatchBusy⟩
  rcases List.mem_append.1 (names ▸ mem) with old | own
  · exact busied.busy j old
  · rw [List.mem_singleton.1 own, onPort, if_pos rfl]
    rfl

/-- A dispatch take that is held makes its handler BUSY (R99). -/
theorem holdDispatch_portsWf {s : State} (h : s.PortsWf) (can : s.CanAnswer storagePort) (x : Storage) (r : Request) :
    ((s.setStorage x).updPort storagePort fun x => x.concluded r none).PortsWf := by
  rw [portsWf_iff] at h ⊢
  obtain ⟨station, storage⟩ := h.unheld can.1
  have busied := h.replace (p := storagePort) (x := (s.port storagePort).concluded r none)
    ⟨(h.bounded _).requests, (h.bounded _).replies, fun _ => can.2⟩ station storage
  rw [port_updPort_eq]
  refine ⟨busied.bounded, h.once, fun i mem => busied.busy i mem, fun _ => ?_⟩
  rw [onPort, if_pos rfl]
  rfl

theorem haltEngine_port_supervisor (s : State) : s.haltEngine.port supervisorPort = s.port supervisorPort := by
  have cancelled : (s.stopEngine.together State.cancelInterlock (stationIds.map fun i => [i])).ports = s.ports :=
    (together_keeps State.ports _ _ (fun t n => rfl) (fun t i => by simp) _).trans (by simp)
  have answered := answerHeldTakes_port_other (q := supervisorPort)
    (held := (s.stopEngine.together State.cancelInterlock (stationIds.map fun i => [i])).heldTakes)
    (fun k _ => stationPort_ne_supervisorPort k.station)
    ((s.stopEngine.together State.cancelInterlock (stationIds.map fun i => [i])).setHeldTakes [])
  have dispatched : ∀ t : State, t.answerHeldDispatch.port supervisorPort = t.port supervisorPort := by
    intro t
    unfold State.answerHeldDispatch
    split
    · rfl
    · simp only [State.releaseHeld, port_updPort]
      rfl
  rw [State.haltEngine, dispatched, State.grantHalt, (evalReadyAll_reads _).2, ← port_congr cancelled]
  exact answered

theorem serveEngHalt_portsWf {s : State} (h : s.PortsWf) : (serveEngHalt s).1.PortsWf := by
  unfold serveEngHalt
  simp only
  split
  · exact h
  · exact haltEngine_portsWf h

/-- Serving a taken request keeps the ports' laws: it is answered with room for the answer, or held with its handler
BUSY. -/
theorem serve_portsWf {s : State} {p : Port} (h : s.PortsWf) (can : s.CanAnswer p) (r : Request) :
    (s.serve p r).PortsWf := by
  rw [serve_eq]
  have h' : (s.takingEnds p r.body).PortsWf := h.congr (takingEnds_ports ..) (by simp) (by simp)
  have can' : (s.takingEnds p r.body).CanAnswer p := canAnswer_congr can (takingEnds_ports ..)
  generalize s.takingEnds p r.body = u at h' can'
  obtain ⟨tag, body⟩ := r
  have answer : ∀ {x : State × Reply}, x.1.PortsWf → x.1.CanAnswer p →
      ((answered x).1.updPort p fun y => y.concluded ⟨tag, body⟩ (answered x).2).PortsWf :=
    fun kept can => concluded_portsWf kept can _ _
  have kept : ∀ {x : State × Reply}, x.1.ports = u.ports → x.1.heldTakes = u.heldTakes →
      x.1.storage.held = u.storage.held →
      ((answered x).1.updPort p fun y => y.concluded ⟨tag, body⟩ (answered x).2).PortsWf :=
    fun ports held dispatch => answer (h'.congr ports held dispatch) (canAnswer_congr can' ports)
  have refused : ((roleRefused u).1.updPort p fun y => y.concluded ⟨tag, body⟩ (roleRefused u).2).PortsWf :=
    kept rfl rfl rfl
  cases body
  case ceilTake =>
    simp only [serveBody]
    split
    · next i role =>
      obtain rfl := roleOf_eq_station role
      unfold serveCeilTake
      split
      · exact hold_portsWf h' can' _ _
      · exact kept (x := answerTake u i) (by simp) (by simp) (by simp)
    · exact refused
    · exact refused
  case dispTake =>
    simp only [serveBody]
    split
    · next role =>
      obtain rfl := roleOf_eq_storage role
      unfold serveDispTake
      split
      · exact holdDispatch_portsWf h' can' _ _
      · exact kept (x := (u, answerDispatch u)) rfl rfl rfl
    · exact refused
    · exact refused
  case paramSet id index value =>
    simp only [serveBody, supervisorOnly]
    split
    · have ports := serveParamSet_kept u id index value
      exact answer (serveParamSet_portsWf h' _ _ _)
        ⟨(ports.handler p).trans can'.1, by rw [ports.replies p]; exact can'.2⟩
    · exact refused
  case engHalt =>
    simp only [serveBody, supervisorOnly]
    split
    · next role =>
      obtain rfl := roleOf_eq_supervisor role
      refine answer (serveEngHalt_portsWf h') ?_
      unfold serveEngHalt
      simp only
      split
      · exact can'
      · rw [State.CanAnswer, haltEngine_port_supervisor]
        exact can'
    · exact refused
  all_goals
    simp only [serveBody, supervisorOnly]
    (repeat' split) <;> first | exact refused | exact kept (by simp) (by simp) (by simp)

/-! ### What stands behind a port that is reset -/

theorem cleared_bounded (x : PortState) : x.cleared.Bounded :=
  ⟨Nat.zero_le _, Nat.zero_le _, fun busy => by cases busy⟩

/-- PORT-RESET frees the port's handler and discards its held take (R86, R100, R173). -/
theorem clears_portsWf {s : State} (h : s.PortsWf) (p : Port) :
    ((s.updPort p PortState.cleared).resetBehind p).PortsWf := by
  have old := (portsWf_iff s).1 h
  have port : ((s.updPort p PortState.cleared).resetBehind p).port = onPort s.port p (s.port p).cleared := by
    rw [← port_updPort_eq]
    exact funext (port_congr (by simp))
  rw [portsWf_iff, port]
  cases role : roleOf p with
  | station i =>
    obtain rfl := roleOf_eq_station role
    have held : ((s.updPort (stationPort i) PortState.cleared).resetBehind (stationPort i)).heldTakes =
        s.heldTakes.filter fun k => k.station != i := by
      simp [State.resetBehind, State.dropHeldTake]
    have storage : ((s.updPort (stationPort i) PortState.cleared).resetBehind (stationPort i)).storage = s.storage := by
      simp [State.resetBehind]
    rw [held, storage]
    refine (old.fewer (List.filter_sublist.map _)).replace (cleared_bounded _) (fun j mem same => ?_) fun _ =>
      (stationPort_ne_storagePort i).symm
    obtain ⟨k, kept, rfl⟩ := List.mem_map.1 mem
    have other := (List.mem_filter.1 kept).2
    rw [stationPort_injective same, bne_self_eq_false] at other
    cases other
  | storage =>
    obtain rfl := roleOf_eq_storage role
    have held : ((s.updPort storagePort PortState.cleared).resetBehind storagePort).heldTakes = s.heldTakes := by
      simp [State.resetBehind]
    have storage : ((s.updPort storagePort PortState.cleared).resetBehind storagePort).storage.held = none := by
      simp only [State.resetBehind, roleOf_storagePort, State.resetStorage]
      split <;> simp
    rw [held, storage]
    exact old.noDispatch.replace (cleared_bounded _) (fun j _ => stationPort_ne_storagePort j) fun on => by cases on
  | supervisor =>
    obtain rfl := roleOf_eq_supervisor role
    exact old.replace (cleared_bounded _) (fun j _ => stationPort_ne_supervisorPort j) fun _ => by decide

/-! ### Every step -/

theorem portsKept : Kept State.PortsWf State.PortsWf fun _ => True where
  within h := h
  ended h := h.congr (by simp) (by simp) (by simp)
  unmarked h := h.congr rfl rfl rfl
  chosen _ h := h.congr rfl rfl rfl
  chosenWithin _ h := h.congr rfl rfl rfl
  linked p _ h :=
    have old := port_bounded h p
    updPort_portsWf h ⟨old.requests, old.replies, old.busyRoom⟩ fun busy => busy
  delivered {s} p a h := by
    have old := port_bounded h p
    have shorter : (PortState.delivered a (s.port p)).replies.length ≤ (s.port p).replies.length := by
      unfold PortState.delivered
      simp only
      split
      · simp
      · exact le_rfl
    exact updPort_portsWf h
      ⟨old.requests, shorter.trans old.replies, fun busy => shorter.trans_lt (old.busyRoom busy)⟩ fun busy => busy
  flagged p h :=
    have old := port_bounded h p
    updPort_portsWf h ⟨old.requests, old.replies, old.busyRoom⟩ fun busy => busy
  dropped p h :=
    have old := port_bounded h p
    updPort_portsWf h ⟨old.requests, old.replies, old.busyRoom⟩ fun busy => busy
  counted x m p h := h.congr (by simp) (by simp) (by simp)
  queued {s p r} h _ room :=
    have old := port_bounded h p
    updPort_portsWf h ⟨by simpa using room, old.replies, old.busyRoom⟩ fun busy => busy
  waiting _ _ := trivial
  taken {s p n r} h able _ _ := by
    have old := port_bounded h p
    simp only [State.canTake, Bool.and_eq_true, beq_iff_eq, decide_eq_true_eq] at able
    have fewer : ((s.port p).requests.eraseIdx n).length ≤ (s.port p).requests.length :=
      (List.eraseIdx_sublist ..).length_le
    refine serve_portsWf (updPort_portsWf h ⟨fewer.trans old.requests, old.replies, old.busyRoom⟩ fun busy => busy)
      ⟨?_, ?_⟩ r
    · simpa using able.1.1
    · simpa using able.2
  cleared p h := clears_portsWf h p
  emptied _ h := h.congr rfl rfl rfl

/-- The twelve ports at power-on: all empty, each with its select line released or not (R174, R179). -/
theorem reset_portsWf {s : State} (held : s.heldTakes = []) (dispatch : s.storage.held = none)
    (ports : ∀ p, ∃ l, s.port p = { PortState.reset with link := l }) : s.PortsWf := by
  rw [portsWf_iff, held, dispatch]
  refine ⟨fun p => ?_, List.nodup_nil, fun i mem => (by cases mem), fun on => by cases on⟩
  obtain ⟨l, port⟩ := ports p
  rw [port]
  exact ⟨Nat.zero_le _, Nat.zero_le _, fun busy => by cases busy⟩

/-- Settles O55: a taking finds its handler IDLE with room for the answer, so that it is answered within the bounds or
held with the handler BUSY (`serve_portsWf`); a publication and a halt answer each held take once
(`answerAll_portsWf`). -/
theorem portLawsKept : Obligations.PortLawsKept := fun _ _ h e =>
  portsKept.keeps_step (fun _ h => h.congr rfl rfl rfl)
    (fun _ e => (powerOn_eq e) ▸ reset_portsWf rfl rfl fun p => ⟨_, look_tabulate _ p⟩)
    (fun h _ => h.congr (by simp) (by simp) (startRun_held _))
    (fun h _ => publish_portsWf h _) h e

end Sys2Proof.Machine

/-! PROOFS. The pending sets' laws: a property of the router that firings and end reports keep is kept by every part of a
command, and the laws of R157 are such a property. -/

namespace Sys2Proof.Machine

/-! ### Properties that firings and end reports keep -/

/-- A firing as the block makes it: a kind that has no stations fires for number 0, and only RAMP-HARD carries the
capture-locked flag (R154). -/
def FiringLawful (k : CauseKind) (i : StationId) (locked : Bool) : Prop :=
  (k.isStation = false → i = 0) ∧ (locked = true → k = .rampHard)

theorem FiringLawful.ofStation {k : CauseKind} (i : StationId) (station : k.isStation = true) :
    FiringLawful k i false :=
  ⟨fun no => absurd (station.symm.trans no) (by decide), fun no => absurd no (by decide)⟩

theorem FiringLawful.ofPlant (k : CauseKind) (locked : Bool) (lock : locked = true → k = .rampHard) :
    FiringLawful k 0 locked :=
  ⟨fun _ => rfl, lock⟩

theorem answerHeldDispatch_router (s : State) : s.answerHeldDispatch.router = s.router := by
  unfold State.answerHeldDispatch
  split <;> rfl

/-- A property of routers that the block's firings and end reports keep. -/
structure Router.Closed (C : Router → Prop) : Prop where
  fire : ∀ {x k i l}, FiringLawful k i l → C x → C (x.fire k i l)
  ended : ∀ {x k i}, C x → C (x.conditionEnded k i)

/-- Parts of the same instant keep what each of them keeps. -/
theorem together_router {C : Router → Prop} {s : State} {α : Type} {act : State → α → State} (parts : List (List α))
    (each : ∀ (t : State) x, C t.router → C (act t x).router) (h : C s.router) :
    C (s.together act parts).router :=
  together_inv (P := fun t => C t.router) (fun _ _ ht => ht) (fun t x _ ht => each t x ht) s h

section
variable {C : Router → Prop} (c : Router.Closed C) {s : State}
include c

theorem Router.Closed.fireStation {k : CauseKind} (i : StationId) (station : k.isStation = true) (h : C s.router) :
    C (s.fire k i).router :=
  c.fire (.ofStation i station) h

theorem Router.Closed.firePlant (k : CauseKind) (h : C s.router) : C (s.firePlant k).router :=
  c.fire (.ofPlant k false (fun locked => absurd locked (by decide))) h

theorem Router.Closed.conditionEnded (k : CauseKind) (i : StationId) (h : C s.router) :
    C (s.conditionEnded k i).router :=
  c.ended h

theorem Router.Closed.fireWhile (k : CauseKind) (holds : Bool) (h : C s.router) : C (s.fireWhile k holds).router := by
  unfold State.fireWhile
  split
  · exact c.firePlant k h
  · exact c.conditionEnded k 0 h

/-! ### The Statistics Unit -/

theorem Router.Closed.statFreeze (why : FreezeReason) (h : C s.router) : C (s.statFreeze why).router := by
  unfold State.statFreeze
  split
  · exact h
  · exact c.firePlant _ h

theorem Router.Closed.statUnfreeze (h : C s.router) : C s.statUnfreeze.router := by
  unfold State.statUnfreeze
  split
  · exact c.conditionEnded _ _ h
  · exact h

theorem Router.Closed.statEvent (x : StatSource) (m : Nat) (p : Port) (h : C s.router) :
    C (s.statEvent x m p).router := by
  unfold State.statEvent
  split
  · exact h
  · simp only
    split
    · exact c.statFreeze _ h
    · exact h

theorem Router.Closed.statPublication (es : RunEvents) (plant : PlantState) (collapsed : Bool) (h : C s.router) :
    C (s.statPublication es plant collapsed).router := by
  unfold State.statPublication
  simp only
  split
  · exact c.statFreeze _ h
  · exact h

/-! ### The Grant Unit and the Monitor Array -/

theorem Router.Closed.evalReady (i : StationId) (h : C s.router) : C (s.evalReady i).router := by
  unfold State.evalReady
  split
  · split
    · exact h
    · exact c.fireStation i rfl h
  · split
    · exact c.conditionEnded _ _ h
    · exact h

theorem Router.Closed.evalReadyAll (h : C s.router) : C s.evalReadyAll.router :=
  forStations_inv (fun t => C t.router) _ (fun _ i ht => c.evalReady i ht) s h

theorem Router.Closed.endRecord (i : StationId) (h : C s.router) : C (s.endRecord i).router := by
  unfold State.endRecord
  split
  · exact h
  · exact c.statEvent _ _ _ h

theorem Router.Closed.cancelInterlock (i : StationId) (h : C s.router) : C (s.cancelInterlock i).router := by
  unfold State.cancelInterlock
  split
  · exact c.evalReady i (c.endRecord i h)
  · exact h

theorem Router.Closed.setEntryState (i : StationId) (new : StationState) (h : C s.router) :
    C (s.setEntryState i new).router := by
  unfold State.setEntryState
  simp only
  split
  · exact h
  · refine c.evalReady i ?_
    split
    · refine c.conditionEnded _ _ ?_
      rw [updStation_router]
      split
      · exact c.cancelInterlock i h
      · exact h
    · split
      · exact c.cancelInterlock i h
      · exact h

theorem Router.Closed.latchStatus (i : StationId) (ev : MonEvent) (h : C s.router) :
    C (s.latchStatus i ev).router := by
  unfold State.latchStatus
  split
  · exact h
  · simp only
    split
    · exact c.fireStation i rfl h
    · exact h

theorem Router.Closed.faultEntry (i : StationId) (h : C s.router) : C (s.faultEntry i).router := by
  unfold State.faultEntry
  split
  · exact c.statEvent _ _ _ (c.setEntryState i _ h)
  · exact h

theorem Router.Closed.monitorEvent (i : StationId) (ev : MonEvent) (h : C s.router) :
    C (s.monitorEvent i ev).router := by
  unfold State.monitorEvent
  simp only
  split
  · split
    · exact c.faultEntry i (c.latchStatus i ev h)
    · exact c.latchStatus i ev h
  · exact c.latchStatus i ev h

theorem Router.Closed.respondEnd (i : StationId) (ev : MonEvent) (h : C s.router) : C (s.respondEnd i ev).router :=
  c.evalReady i (c.monitorEvent i ev h)

theorem Router.Closed.breakInterlock (i : StationId) (ev : MonEvent) (h : C s.router) :
    C (s.breakInterlock i ev).router := by
  unfold State.breakInterlock
  split
  · exact c.respondEnd i ev (c.endRecord i h)
  · exact h

theorem Router.Closed.takingEnds (p : Port) (b : Body) (h : C s.router) : C (s.takingEnds p b).router := by
  unfold State.takingEnds
  split
  · next i _ =>
    rcases endAtTaking_eq s i b with same | broken
    · rw [same]
      exact h
    · rw [broken]
      exact c.breakInterlock i _ h
  · exact h
  · exact h

theorem Router.Closed.judgeEvent (i : StationId) (happened : Bool) (ev : MonEvent) (h : C s.router) :
    C (s.judgeEvent i happened ev).router := by
  unfold State.judgeEvent
  split
  · simp only
    split <;> exact c.latchStatus i ev h
  · exact h

theorem Router.Closed.judgeReport (i : StationId) (r : ReportView) (h : C s.router) :
    C (s.judgeReport i r).router := by
  unfold State.judgeReport
  simp only
  have judged := c.judgeEvent i (decide (0 < overshootCount s i r) && decide (s.params.ovsCount ≤ overshootCount s i r))
    .overshoot (c.judgeEvent i (implausible s i r) .implausible
      (s := s.updStation i fun e =>
        { e.exits s.params.monMode (cleanFor s i r) with overshootRun := overshootCount s i r }) h)
  split
  · split
    · exact c.setEntryState i _ judged
    · exact judged
  · split
    · exact c.faultEntry i judged
    · exact judged

theorem Router.Closed.answerTake (i : StationId) (h : C s.router) : C (answerTake s i).1.router := by
  unfold Machine.answerTake
  split
  · exact h
  · split
    · exact h
    · split
      · refine c.evalReady i ?_
        obtain same | ⟨x, m, one⟩ := raiseEvent_cases (s.updStation i _) i (grantOf s i).1 (s.station i).applied
          (grantOf s i).2 (s.liveOffer s.published i)
        · rw [same]
          exact h
        · rw [one]
          exact c.statEvent _ _ _ h
      · exact c.evalReady i h

theorem Router.Closed.answerHeldTakes (h : C s.router) : C s.answerHeldTakes.router := by
  have each : ∀ (held : List HeldTake) (t : State), C t.router → C (held.foldl State.answerHeldTake t).router := by
    intro held
    induction held with
    | nil => exact fun t ht => ht
    | cons k held ih => exact fun t ht => ih _ (c.answerTake k.station ht)
  exact each _ _ h

theorem Router.Closed.takeDeadlines (h : C s.router) : C s.takeDeadlines.router := by
  refine together_router (C := C) _ (fun t x ht => ?_) (s := s.updStations _) h
  obtain ⟨i, part⟩ := x
  cases part with
  | ends => exact c.endRecord i ht
  | responds => exact c.respondEnd i _ ht

theorem Router.Closed.haltEngine (h : C s.router) : C s.haltEngine.router := by
  unfold State.haltEngine State.grantHalt
  rw [answerHeldDispatch_router]
  exact c.evalReadyAll (c.answerHeldTakes (together_router (C := C) _ (fun t i ht => c.cancelInterlock i ht) (s := s.stopEngine)
    (by simpa using h)))

/-! ### The Ramp Monitor and the run -/

theorem Router.Closed.releaseScopes (x : Vector Scope 5) (h : C s.router) : C (s.releaseScopes x).router := by
  unfold State.releaseScopes
  simp only
  split
  · refine c.evalReadyAll ?_
    split
    · exact h
    · exact c.conditionEnded _ _ h
  · exact h

theorem Router.Closed.freezeScope (n : ScopeId) (h : C s.router) : C (s.freezeScope n).router := by
  unfold State.freezeScope
  simp only
  split
  · exact h
  · exact c.evalReadyAll (c.firePlant _ h)

theorem Router.Closed.rampViolations (x : RunResult) (h : C s.router) : C (s.rampViolations x).router := by
  unfold State.rampViolations
  simp only
  have soft : C (if x.soft = true then
      (s.setRamp { s.ramp.setStatuses x with capture := s.ramp.capture.publish x }).firePlant .rampSoft
      else s.setRamp { s.ramp.setStatuses x with capture := s.ramp.capture.publish x }).router := by
    split
    · exact c.firePlant _ h
    · exact h
  split
  · exact c.fire (.ofPlant .rampHard _ fun _ => rfl) soft
  · exact soft

theorem Router.Closed.rampPublication (x : RunResult) (h : C s.router) : C (s.rampPublication x).router := by
  have scopes : C ((s.rampViolations x).rampScopes x).router := by
    have counted : C (if x.ramp.checked = true then (s.rampViolations x).releaseScopes (tabulate fun n =>
        (look (s.rampViolations x).ramp.scopes n).count x.clean x.run.params.freezeAuto)
        else s.rampViolations x).router := by
      split
      · exact c.releaseScopes _ (c.rampViolations x h)
      · exact c.rampViolations x h
    unfold State.rampScopes
    simp only
    split
    · exact c.freezeScope _ counted
    · exact counted
  exact c.fireWhile _ _ (c.fireWhile _ _ (c.fireWhile _ _ (c.fireWhile _ _ scopes)))

theorem Router.Closed.publish (x : RunResult) (h : C s.router) : C (s.publish x).router := by
  unfold State.publish State.grantPublication
  rw [answerHeldDispatch_router]
  refine c.evalReadyAll (c.answerHeldTakes (c.takeDeadlines (c.statPublication _ _ _ (c.rampPublication x ?_))))
  simpa using h

theorem Router.Closed.ageingPart (x : StationId × AgeingPart) (h : C s.router) : C (s.ageingPart x).router := by
  obtain ⟨i, part⟩ := x
  cases part with
  | becomes => exact c.setEntryState i _ h
  | reports => exact c.statEvent _ _ _ (c.fireStation i rfl h)
  | longer =>
    simp only [State.ageingPart, State.staleLonger]
    split
    · exact c.monitorEvent i _ h
    · exact h

theorem Router.Closed.aged (h : C s.router) : C s.aged.router := by
  have stations : C s.ageStations.router :=
    together_router (C := C) _ (fun t x ht => c.ageingPart x ht) (s := s.updStations fun _ e => e.grow) h
  unfold State.aged State.ageStorage
  split
  · exact stations
  · simp only
    split
    · exact c.firePlant _ (s := s.ageStations.setStorage _) stations
    · exact stations

theorem Router.Closed.startRun (h : C s.router) : C s.startRun.router := by
  obtain ⟨n, started⟩ := startRun_eq s
  rw [started]
  exact c.aged h

theorem Router.Closed.startEngine (h : C s.router) : C s.startEngine.router :=
  c.evalReadyAll (c.releaseScopes _ h)

/-! ### The services -/

theorem Router.Closed.dropEvents (p : Port) (n : Nat) (h : C s.router) : C (s.dropEvents p n).router := by
  induction n generalizing s with
  | zero => exact h
  | succ n ih => exact ih (c.statEvent _ _ _ h)

theorem Router.Closed.serveJoin (i : StationId) (h : C s.router) : C (serveJoin s i).1.router := by
  unfold Machine.serveJoin
  simp only
  split
  · split
    · exact h
    · exact c.setEntryState i _ (s := s.updStation i _) h
  · exact h

theorem Router.Closed.serveLeave (i : StationId) (h : C s.router) : C (serveLeave s i).1.router := by
  unfold Machine.serveLeave
  split
  · exact h
  · exact c.setEntryState i _ h

theorem Router.Closed.servePark (station : Byte) (ceiling : BitVec 16) (h : C s.router) :
    C (servePark s station ceiling).1.router := by
  unfold Machine.servePark
  split
  · exact h
  · split
    · exact h
    · exact c.setEntryState _ _ h

theorem Router.Closed.serveUnpark (station : Byte) (h : C s.router) : C (serveUnpark s station).1.router := by
  unfold Machine.serveUnpark
  split
  · exact h
  · split
    · exact c.setEntryState _ _ (s := s.updStation _ _) h
    · exact h

theorem Router.Closed.serveTelemetry (i : StationId) (meas avail : BitVec 16) (h : C s.router) :
    C (serveTelemetry s i meas avail).1.router := by
  unfold Machine.serveTelemetry
  simp only
  split
  · exact h
  · split
    · exact c.monitorEvent i _ h
    · exact c.judgeReport i _ (c.setEntryState i _ (s := s.updStation i _) h)

theorem Router.Closed.serveFaultClearNamed (station : Byte) (h : C s.router) :
    C (serveFaultClearNamed s station).1.router := by
  unfold Machine.serveFaultClearNamed
  split
  · exact c.conditionEnded _ _ (c.conditionEnded _ _ h)
  · split
    · next i _ =>
      have cleared : C (if (s.station i).state = .faulted then
          ((s.updStation i fun e => { e with statuses := 0, holding := 0, overshootRun := 0 }).setLastClear
            (some i)).setEntryState i .joining
          else (s.updStation i fun e => { e with statuses := 0, holding := 0, overshootRun := 0 }).setLastClear
            (some i)).router := by
        split
        · exact c.setEntryState i _ h
        · exact h
      simp only [serveFaultClear, stateReply]
      split
      · exact c.conditionEnded _ _ cleared
      · exact cleared
    · exact h

theorem Router.Closed.serveCeilTake (i : StationId) (tag : Byte) (h : C s.router) :
    C (serveCeilTake s i tag).1.router := by
  unfold Machine.serveCeilTake
  split
  · exact h
  · exact c.answerTake i h

theorem Router.Closed.serveCeilApply (i : StationId) (echo : BitVec 16) (h : C s.router) :
    C (serveCeilApply s i echo).1.router := by
  unfold Machine.serveCeilApply
  simp only
  split
  · split
    · exact c.evalReady i (s := s.updStation i _) h
    · exact c.evalReady i (c.monitorEvent i _ (s := s.updStation i _) h)
  · split
    · exact h
    · refine c.evalReady i (together_router (C := C) _ (fun t x ht => ?_) h)
      cases x with
      | counted => exact c.statEvent _ _ _ ht
      | judged => exact c.monitorEvent i _ ht

theorem Router.Closed.leaveStorageStale (old : StorageState) (h : C s.router) :
    C (s.leaveStorageStale old).router := by
  unfold State.leaveStorageStale
  split
  · exact c.conditionEnded _ _ h
  · exact h

theorem Router.Closed.serveStorageLeave (h : C s.router) : C (serveStorageLeave s).1.router := by
  unfold Machine.serveStorageLeave
  split
  · exact h
  · exact c.leaveStorageStale _ (s := s.setStorage _) h

theorem Router.Closed.serveStorTel (meas : BitVec 32) (soc bdis bchg : BitVec 16) (h : C s.router) :
    C (serveStorTel s meas soc bdis bchg).1.router := by
  unfold Machine.serveStorTel
  split
  · exact h
  · split
    · exact h
    · exact c.leaveStorageStale _ (s := s.setStorage _) h

theorem Router.Closed.serveFreezeRelease (scope : Byte) (h : C s.router) :
    C (serveFreezeRelease s scope).1.router := by
  unfold Machine.serveFreezeRelease
  split
  · exact h
  · exact c.releaseScopes _ h

theorem Router.Closed.serveStatCtrl (action : StatAction) (h : C s.router) : C (serveStatCtrl s action).1.router := by
  cases action
  case freeze => exact c.statFreeze _ h
  case unfreeze => exact c.statUnfreeze h
  case clearAll => exact c.statUnfreeze (s := s.setStats _) h
  all_goals
    simp only [Machine.serveStatCtrl]
    (repeat' split) <;> exact h

theorem Router.Closed.serveEngHalt (h : C s.router) : C (serveEngHalt s).1.router := by
  unfold Machine.serveEngHalt
  simp only
  split
  · exact h
  · exact c.haltEngine h

theorem Router.Closed.serveEngStart (h : C s.router) : C (serveEngStart s).1.router := by
  have started := c.startEngine h
  unfold Machine.serveEngStart
  split
  · exact started
  · exact h

theorem Router.Closed.resetBehind (p : Port) (h : C s.router) : C (s.resetBehind p).router := by
  unfold State.resetBehind
  split
  · next i _ =>
    unfold State.resetEntry
    split
    · exact h
    · exact c.cancelInterlock i (c.setEntryState i _ (s := s.dropHeldTake i) h)
  · unfold State.resetStorage
    simp only
    split
    · exact h
    · exact c.leaveStorageStale _ (s := State.setStorage _ _) h
  · exact h

/-- A parameter's write fires and ends only by the evaluation of raise-ready and by the DROP events, but for a write of
ROUTE. -/
theorem Router.Closed.storeParam (routes : ∀ {x} k r, C x → C { x with routes := put x.routes k r })
    (id index : Nat) (v : BitVec 32) (h : C s.router) : C (storeParam s id index v).router := by
  unfold Machine.storeParam
  simp only
  split
  case h_18 =>
    split
    · exact c.evalReady _ (s := s.updStation _ _) h
    · exact h
  case h_28 => exact c.evalReadyAll (s := s.setParams _) h
  case h_29 =>
    split
    · exact c.dropEvents _ _ (s := s.updPort _ _) h
    · exact h
  case h_31 =>
    split
    · exact routes _ _ h
    · exact h
  all_goals first | exact h | (split <;> exact h)

/-- Serving a request keeps such a property, if a write of ROUTE and an ATTN-ACK do. -/
theorem Router.Closed.serveBody (routes : ∀ {x} k r, C x → C { x with routes := put x.routes k r })
    (acked : ∀ {t : State} p kind inst, C t.router → C (serveAttnAck t p kind inst).1.router)
    (p : Port) (r : Request) (h : C s.router) : C (serveBody s p r).1.router := by
  have only : ∀ {x : State × Reply}, C x.1.router → C (supervisorOnly p s x).1.router := fun hx =>
    supervisorOnly_keeps (P := fun t => C t.router) h hx p
  obtain ⟨tag, body⟩ := r
  cases body
  case join =>
    simp only [Machine.serveBody]
    split
    · exact c.serveJoin _ h
    · unfold serveStorageJoin
      split <;> exact h
    · exact h
  case leave =>
    simp only [Machine.serveBody]
    split
    · exact c.serveLeave _ h
    · exact c.serveStorageLeave h
    · exact h
  case telemetry meas avail =>
    simp only [Machine.serveBody]
    split
    · exact c.serveTelemetry _ _ _ h
    · exact h
    · exact h
  case ceilTake =>
    simp only [Machine.serveBody]
    split
    · exact c.serveCeilTake _ _ h
    · exact h
    · exact h
  case ceilApply echo =>
    simp only [Machine.serveBody]
    split
    · exact c.serveCeilApply _ _ h
    · exact h
    · exact h
  case storTel meas soc bdis bchg =>
    simp only [Machine.serveBody]
    split
    · exact c.serveStorTel _ _ _ _ h
    · exact h
    · exact h
  case attnAck kind inst => exact acked p kind inst h
  case paramSet id index value =>
    refine only ?_
    rcases serveParamSet_cases s id index value with same | ⟨-, -, store⟩
    · rw [same]
      exact h
    · rw [store]
      exact c.storeParam routes _ _ _ h
  case engStart => exact only (c.serveEngStart h)
  case engHalt => exact only (c.serveEngHalt h)
  case park station ceiling => exact only (c.servePark _ _ h)
  case unpark station => exact only (c.serveUnpark _ h)
  case faultClear station => exact only (c.serveFaultClearNamed _ h)
  case freezeRelease scope => exact only (c.serveFreezeRelease _ h)
  case statCtrl action => exact only (c.serveStatCtrl _ h)
  all_goals
    simp only [Machine.serveBody, supervisorOnly]
    (repeat' split) <;> simpa [answered, roleRefused] using h

end

end Sys2Proof.Machine

/-! PROOFS. O56: the pending sets name each pair of a kind and a station once, with lawful entries. -/

namespace Sys2Proof.Machine

/-! ### The laws of one pending set, within events too -/

/-- What an entry of a pending set is named by (R157). -/
def PendingEntry.key (e : PendingEntry) : CauseKind × StationId := (e.kind, e.inst)

/-- A list of pending entries with each pair once and every entry lawful (R157). -/
structure PendingLawful (es : List PendingEntry) : Prop where
  once : (es.map PendingEntry.key).Nodup
  each : ∀ e ∈ es, e.Wf

theorem PendingLawful.perm {es fs : List PendingEntry} (h : PendingLawful es) (p : fs.Perm es) : PendingLawful fs :=
  ⟨((p.map _).nodup_iff).2 h.once, fun e m => h.each e (p.mem_iff.1 m)⟩

theorem PendingLawful.sublist {es fs : List PendingEntry} (h : PendingLawful es) (sub : fs.Sublist es) :
    PendingLawful fs :=
  ⟨(sub.map _).nodup h.once, fun e m => h.each e (sub.subset m)⟩

theorem merge_key (k : CauseKind) (i : StationId) (l : Bool) (e : PendingEntry) : (e.merge k i l).key = e.key := by
  unfold PendingEntry.merge
  split <;> rfl

/-- Merging keeps an entry's laws: the count stays below 256, and the flag comes only with RAMP-HARD. -/
theorem PendingEntry.Wf.merge {e : PendingEntry} (h : e.Wf) {k : CauseKind} {i : StationId} {l : Bool}
    (lawful : FiringLawful k i l) : (e.merge k i l).Wf := by
  unfold PendingEntry.merge
  split
  · next own =>
    obtain ⟨kind, -⟩ := (isFor_iff e k i).1 own
    obtain ⟨least, most⟩ := h.counted
    refine ⟨by simp only [saturate]; omega, h.single, fun lock => ?_⟩
    rcases Bool.or_eq_true_iff.1 lock with old | new
    · exact h.flag old
    · exact kind.trans (lawful.2 new)
  · exact h

/-- A delivered firing joins its pair's entry or adds a pair that the set does not hold. -/
theorem deliver_lawful {q : PendingSet} (h : PendingLawful q.all) {k : CauseKind} {i : StationId} {l : Bool}
    (lawful : FiringLawful k i l) (r : Release) : PendingLawful (q.deliver k i r l).all := by
  unfold PendingSet.deliver
  split
  · have merged : PendingLawful (q.all.map (PendingEntry.merge k i l)) := by
      refine ⟨by simpa [Function.comp_def, merge_key] using h.once, fun e m => ?_⟩
      obtain ⟨old, place, rfl⟩ := List.mem_map.1 m
      exact (h.each old place).merge lawful
    simpa [PendingSet.all] using merged
  · next missing =>
    have new : ∀ e ∈ q.all, e.key ≠ (k, i) := fun e m same =>
      missing (List.any_eq_true.2 ⟨e, m, (isFor_iff e k i).2 (Prod.mk.inj same)⟩)
    let e : PendingEntry := { kind := k, inst := i, release := r, count := 1, locked := l }
    have added : PendingLawful (e :: q.all) := by
      refine ⟨List.nodup_cons.2 ⟨fun m => ?_, h.once⟩, List.forall_mem_cons.2 ⟨?_, h.each⟩⟩
      · obtain ⟨old, place, same⟩ := List.mem_map.1 m
        exact new old place same
      · exact ⟨⟨le_rfl, show 1 ≤ 255 by decide⟩, lawful.1, lawful.2⟩
    refine added.perm ?_
    exact ((insertFresh_perm e q.fresh).append_left q.entries).trans List.perm_middle

/-! ### The laws of the router -/

/-- Every pending set is lawful, the entries of the event being taken included. -/
def Router.Lawful (x : Router) : Prop := ∀ p, PendingLawful (look x.sets p).all

theorem Router.lawful_closed : Router.Closed Router.Lawful where
  fire lawful h p := by
    simp only [Router.fire, look_tabulate]
    split
    · exact deliver_lawful (h p) lawful _
    · exact h p
  ended h p := by
    simp only [Router.conditionEnded, look_tabulate, PendingSet.all, ← List.filter_append]
    exact (h p).sublist List.filter_sublist

theorem setsWf_iff (s : State) : s.SetsWf ↔ (∀ p, (look s.router.sets p).fresh = []) ∧ s.router.Lawful := by
  constructor
  · intro h
    have whole : ∀ p, (look s.router.sets p).all = (look s.router.sets p).entries := fun p => by
      rw [PendingSet.all, h.settled p, List.append_nil]
    exact ⟨h.settled, fun p => by rw [whole p]; exact ⟨h.once p, h.each p⟩⟩
  · rintro ⟨settled, h⟩
    have whole : ∀ p, PendingLawful (look s.router.sets p).entries := fun p => by
      simpa [PendingSet.all, settled p] using h p
    exact ⟨settled, fun p => (whole p).once, fun p => (whole p).each⟩

theorem State.SetsWf.lawful {s : State} (h : s.SetsWf) : s.router.Lawful := ((setsWf_iff s).1 h).2

theorem State.SetsWf.congr {s t : State} (h : s.SetsWf) (router : t.router = s.router) : t.SetsWf :=
  ⟨router ▸ h.settled, router ▸ h.once, router ▸ h.each⟩

/-- The end of an event puts its entries behind the older ones, so that the laws hold between events again. -/
theorem endEvent_setsWf {s : State} (h : s.router.Lawful) : s.endEvent.SetsWf := by
  refine (setsWf_iff _).2 ⟨fun p => ?_, fun p => ?_⟩ <;>
    simp only [State.endEvent, setRouter_router, Router.settle, look_tabulate, PendingSet.settle]
  simpa [PendingSet.all] using h p

/-- A pending set replaced by a part of itself. -/
theorem Router.Lawful.put {x : Router} (h : x.Lawful) (p : Port) {q : PendingSet}
    (sub : q.all.Sublist (look x.sets p).all) : Router.Lawful { x with sets := put x.sets p q } := by
  intro k
  simp only [look_put]
  split
  · next same =>
    subst same
    exact (h _).sublist sub
  · exact h k

theorem serveAttnAck_lawful {s : State} (p : Port) (kind inst : Byte) (h : s.router.Lawful) :
    (serveAttnAck s p kind inst).1.router.Lawful := by
  unfold serveAttnAck
  split
  · exact h
  · exact h.put p (List.filter_sublist.append List.filter_sublist)

/-! ### Every step -/

theorem setsKept : Kept State.SetsWf (fun s => s.router.Lawful) fun _ => True where
  within h := h.lawful
  ended h := endEvent_setsWf h
  unmarked h := h.congr rfl
  chosen _ h := h.congr rfl
  chosenWithin _ h := h
  linked _ _ h := h.congr rfl
  delivered _ _ h := h.congr rfl
  flagged _ h := h
  dropped _ h := h
  counted x m p h := Router.lawful_closed.statEvent x m p h
  queued h _ _ := h
  waiting _ _ := trivial
  taken {s p n r} h _ _ _ := by
    rw [serve_eq]
    exact Router.lawful_closed.serveBody (fun _ _ routed => routed) serveAttnAck_lawful p r
      (Router.lawful_closed.takingEnds p r.body (s := s.updPort p _) h.lawful)
  cleared p h := Router.lawful_closed.resetBehind p (s := State.updPort _ p _) h
  emptied p h := Router.Lawful.put h p (List.nil_sublist _)

/-- Settles O56: every firing and every end report keeps the pairs apart and the entries lawful
(`Router.lawful_closed`), and the end of each event settles what it added. -/
theorem pendingSetLawsKept : Obligations.PendingSetLawsKept := fun _ _ h e =>
  setsKept.keeps_step (fun _ h => h.congr rfl)
    (fun _ e => by
      rw [powerOn_eq e]
      constructor <;> intro p <;> simp [State.reset, Router.reset, PendingSet.empty])
    (fun h _ => Router.lawful_closed.startRun h.lawful)
    (fun h _ => Router.lawful_closed.publish _ h.lawful) h e

end Sys2Proof.Machine

/-! PROOFS. What an event tells the router: the firings and end reports of its parts as one list, the notices that two
states call for, and how the notices of consecutive parts join. -/

namespace Sys2Proof.Machine

/-! ### Lists of firings and end reports -/

/-- One thing a part of an event tells the router (R156, R159). -/
inductive Notice where
  | fires (k : CauseKind) (i : StationId) (locked : Bool)
  | ends (k : CauseKind) (i : StationId)

/-- Whether a notice is of a pair. -/
def Notice.isFor (k : CauseKind) (i : StationId) : Notice → Bool
  | .fires k' i' _ => k' == k && i' == i
  | .ends k' i' => k' == k && i' == i

/-- The router after one notice. -/
def Router.hear (x : Router) : Notice → Router
  | .fires k i locked => x.fire k i locked
  | .ends k i => x.conditionEnded k i

/-- The router after a list of notices. -/
def Router.hears (x : Router) (ns : List Notice) : Router := ns.foldl Router.hear x

section
variable {x y : Router} {k : CauseKind} {i : StationId} {p : Port} {ns : List Notice}

theorem hears_routes (x : Router) (ns : List Notice) : (x.hears ns).routes = x.routes := by
  induction ns generalizing x with
  | nil => rfl
  | cons n ns ih => cases n <;> exact ih _

theorem hears_append (x : Router) (ns ms : List Notice) : x.hears (ns ++ ms) = (x.hears ns).hears ms :=
  List.foldl_append

theorem hears_replicate (x : Router) (n : Nat) (k : CauseKind) (i : StationId) :
    x.hears (List.replicate n (.fires k i false)) = x.fired n k i := by
  induction n generalizing x with
  | zero => rfl
  | succ n ih => exact ih _

theorem hear_agrees_other {n : Notice} (h : n.isFor k i = false) (x : Router) (p : Port) :
    (x.hear n).AgreesAt x k i p := by
  cases n <;> simp only [Notice.isFor, Bool.and_eq_false_iff, beq_eq_false_iff_ne] at h
  · exact fire_agrees_other x (fun same => h.elim (· same.1) (· same.2)) _ p
  · exact conditionEnded_agrees_other x (fun same => h.elim (· same.1) (· same.2)) p

theorem hear_agrees {n : Notice} (h : n.isFor k i = true) (r : x.routes = y.routes) (a : x.AgreesAt y k i p) :
    (x.hear n).AgreesAt (y.hear n) k i p := by
  cases n <;> simp only [Notice.isFor, Bool.and_eq_true, beq_iff_eq] at h <;> obtain ⟨rfl, rfl⟩ := h
  · exact fire_agrees r a _
  · exact conditionEnded_agrees a

/-- A pair's entries follow the notices of that pair alone. -/
theorem hears_agrees (r : x.routes = y.routes) (a : x.AgreesAt y k i p) :
    (x.hears ns).AgreesAt (y.hears (ns.filter (·.isFor k i))) k i p := by
  induction ns generalizing x y with
  | nil => exact a
  | cons n ns ih =>
    cases own : n.isFor k i with
    | false =>
      rw [List.filter_cons_of_neg (by simp [own])]
      exact ih ((hears_routes x [n]).trans r) ((hear_agrees_other own x p).trans a)
    | true =>
      rw [List.filter_cons_of_pos own]
      exact ih ((hears_routes x [n]).trans (r.trans (hears_routes y [n]).symm)) (hear_agrees own r a)

theorem hear_agreesOff {may : CauseKind → StationId → Bool} {n : Notice}
    (h : ∀ k i, n.isFor k i = true → may k i = true) (x : Router) : x.AgreesOff (x.hear n) may := by
  cases n
  · exact fire_agreesOff x (h _ _ (by simp [Notice.isFor])) _
  · exact conditionEnded_agreesOff x (h _ _ (by simp [Notice.isFor]))

theorem hears_agreesOff {may : CauseKind → StationId → Bool}
    (h : ∀ k i, may k i = false → ns.filter (·.isFor k i) = []) (x : Router) : x.AgreesOff (x.hears ns) may := by
  induction ns generalizing x with
  | nil => exact .refl x may
  | cons n ns ih =>
    have rest : ∀ k i, may k i = false → ns.filter (·.isFor k i) = [] := fun k i none =>
      List.filter_eq_nil_iff.2 fun m mem => List.filter_eq_nil_iff.1 (h k i none) m (List.mem_cons_of_mem _ mem)
    refine (hear_agreesOff (fun k i own => ?_) x).trans (ih rest _)
    by_contra none
    exact List.filter_eq_nil_iff.1 (h k i (by simpa using none)) n (List.mem_cons_self ..) own

end

/-! ### From one state to the next -/

/-- From `s` to `t` the router heard, pair by pair, the notices of `path`, and nothing else happened to it. -/
def State.Hears (s t : State) (path : CauseKind → StationId → List Notice) : Prop :=
  ∃ ns, t.router = s.router.hears ns ∧ ∀ k i, ns.filter (·.isFor k i) = path k i

/-- The notices of one pair only. -/
def onlyPair (k : CauseKind) (i : StationId) (ns : List Notice) (k' : CauseKind) (i' : StationId) : List Notice :=
  if k' = k ∧ i' = i then ns else []

section
variable {s t u : State} {path path' : CauseKind → StationId → List Notice}

theorem State.Hears.routes (h : s.Hears t path) : t.router.routes = s.router.routes := by
  obtain ⟨ns, heard, -⟩ := h
  rw [heard, hears_routes]

theorem State.Hears.agrees (h : s.Hears t path) (k : CauseKind) (i : StationId) (p : Port) :
    t.router.AgreesAt (s.router.hears (path k i)) k i p := by
  obtain ⟨ns, heard, own⟩ := h
  rw [heard, ← own]
  exact hears_agrees rfl (.refl ..)

theorem State.Hears.agreesOff (h : s.Hears t path) {may : CauseKind → StationId → Bool}
    (none : ∀ k i, may k i = false → path k i = []) : s.router.AgreesOff t.router may := by
  obtain ⟨ns, heard, own⟩ := h
  rw [heard]
  exact hears_agreesOff (fun k i off => (own k i).trans (none k i off)) _

theorem State.Hears.nothing (same : t.router = s.router) : s.Hears t fun _ _ => [] :=
  ⟨[], same, fun _ _ => rfl⟩

theorem State.Hears.trans (h : s.Hears t path) (g : t.Hears u path') :
    s.Hears u fun k i => path k i ++ path' k i := by
  obtain ⟨ns, heard, own⟩ := h
  obtain ⟨ms, heard', own'⟩ := g
  exact ⟨ns ++ ms, by rw [heard', heard, hears_append], fun k i => by rw [List.filter_append, own, own']⟩

theorem State.Hears.of_eq (h : s.Hears t path) (same : ∀ k i, path k i = path' k i) : s.Hears t path' := by
  obtain ⟨ns, heard, own⟩ := h
  exact ⟨ns, heard, fun k i => (own k i).trans (same k i)⟩

theorem isFor_unique {n : Notice} {k k' : CauseKind} {i i' : StationId} (h : n.isFor k i = true)
    (h' : n.isFor k' i' = true) : k' = k ∧ i' = i := by
  cases n <;> simp only [Notice.isFor, Bool.and_eq_true, beq_iff_eq] at h h' <;> obtain ⟨rfl, rfl⟩ := h <;>
    exact ⟨h'.1.symm, h'.2.symm⟩

theorem State.Hears.pair {ns : List Notice} {k : CauseKind} {i : StationId} (own : ∀ n ∈ ns, n.isFor k i = true)
    (heard : t.router = s.router.hears ns) : s.Hears t (onlyPair k i ns) := by
  refine ⟨ns, heard, fun k' i' => ?_⟩
  unfold onlyPair
  split
  · next same =>
    obtain ⟨rfl, rfl⟩ := same
    exact List.filter_eq_self.2 own
  · next other => exact List.filter_eq_nil_iff.2 fun n mem own' => other (isFor_unique (own n mem) own')

theorem State.Hears.of_fired {n : Nat} {k : CauseKind} {i : StationId} (heard : t.router = s.router.fired n k i) :
    s.Hears t (onlyPair k i (List.replicate n (.fires k i false))) := by
  refine .pair (fun m mem => ?_) (by rw [heard, hears_replicate])
  rw [List.eq_of_mem_replicate mem]
  simp [Notice.isFor]

end

/-! ### The notices two states call for -/

/-- The notice of a flag that goes from one value to another: a firing when it was set, an end report when it was
cleared. -/
def flipped (k : CauseKind) (i : StationId) (before after : Bool) : List Notice :=
  if after && !before then [.fires k i false] else if before && !after then [.ends k i] else []

/-- What an event that cleared no status has told the router between two states, the pairs of the stations and
STATS-FREEZE: `State.Notices` and `State.ReadyNotice` as lists. -/
def State.noticesOf (s t : State) (k : CauseKind) (i : StationId) : List Notice :=
  match k with
  | .raiseReady => flipped k i (s.station i).ready (t.station i).ready
  | .stnStale => flipped k i ((s.station i).state == .stale) ((t.station i).state == .stale)
  | .stnMonitor => List.replicate ((s.station i).newStatuses (t.station i)) (.fires k i false)
  | .statsFreeze => if i = 0 then List.replicate (s.freezings t) (.fires k i false) else []
  | _ => []

theorem State.Hears.of_flipped {s t : State} {k : CauseKind} {i : StationId} {before after : Bool}
    (heard : t.router = s.router.hears (flipped k i before after)) :
    s.Hears t (onlyPair k i (flipped k i before after)) := by
  refine .pair (fun n mem => ?_) heard
  unfold flipped at mem
  split at mem
  · simp_all [Notice.isFor]
  · split at mem <;> simp_all [Notice.isFor]

theorem flipped_same (k : CauseKind) (i : StationId) (b : Bool) : flipped k i b b = [] := by
  cases b <;> rfl

/-- A flag that does not go back gives one notice on the way. -/
theorem flipped_append {before mid after : Bool} (onward : mid = before ∨ mid = after) (k : CauseKind) (i : StationId) :
    flipped k i before mid ++ flipped k i mid after = flipped k i before after := by
  rcases onward with rfl | rfl
  · rw [flipped_same, List.nil_append]
  · rw [flipped_same, List.append_nil]

/-- Whether every status set in one entry is set in another. -/
def Station.Latched (a b : Station) : Prop := ∀ n, a.statuses.getLsbD n = true → b.statuses.getLsbD n = true

theorem Station.Latched.of_same {a b : Station} (h : b.statuses = a.statuses) : a.Latched b := fun _ set => h ▸ set

theorem Station.Latched.trans {a b c : Station} (h : a.Latched b) (g : b.Latched c) : a.Latched c :=
  fun n set => g n (h n set)

/-- What becomes true on a way that loses nothing becomes true in one of its two parts. -/
theorem countP_gained {α : Type} {f g h : α → Bool} (fg : ∀ x, f x = true → g x = true)
    (gh : ∀ x, g x = true → h x = true) (xs : List α) :
    xs.countP (fun x => !f x && g x) + xs.countP (fun x => !g x && h x) = xs.countP (fun x => !f x && h x) := by
  induction xs with
  | nil => rfl
  | cons x xs ih =>
    have first := fg x
    have second := gh x
    simp only [List.countP_cons, ← ih]
    cases hf : f x <;> cases hg : g x <;> cases hh : h x <;> simp_all <;> omega

theorem newStatuses_add {a b c : Station} (h : a.Latched b) (g : b.Latched c) :
    a.newStatuses b + b.newStatuses c = a.newStatuses c := by
  simp only [Station.newStatuses, ← List.countP_eq_length_filter]
  exact countP_gained (α := Fin 8) (fun n => h n.val) (fun n => g n.val) _

theorem freezings_add {s t u : State} (h : s.stats.frozen = true → t.stats.frozen = true)
    (g : t.stats.frozen = true → u.stats.frozen = true) : s.freezings t + t.freezings u = s.freezings u := by
  unfold State.freezings
  revert h g
  cases s.stats.frozen <;> cases t.stats.frozen <;> cases u.stats.frozen <;> simp

/-- From `s` to `t` the router heard the notices that the two states call for, no status was cleared and the unit was
not unfrozen. -/
structure State.Told (s t : State) : Prop where
  hears : s.Hears t (s.noticesOf t)
  latched : ∀ i, (s.station i).Latched (t.station i)
  frozen : s.stats.frozen = true → t.stats.frozen = true

section
variable {s t u : State}

theorem noticesOf_append (h : s.Told t) (g : t.Told u) {k : CauseKind} (other : k ≠ .raiseReady)
    (stale : ∀ i, ((t.station i).state == .stale) = ((s.station i).state == .stale) ∨
      ((t.station i).state == .stale) = ((u.station i).state == .stale)) (i : StationId) :
    s.noticesOf t k i ++ t.noticesOf u k i = s.noticesOf u k i := by
  cases k
  case raiseReady => exact absurd rfl other
  case stnStale => exact flipped_append (stale i) _ _
  case stnMonitor => simp only [State.noticesOf, ← newStatuses_add (h.latched i) (g.latched i), List.replicate_add]
  case statsFreeze =>
    simp only [State.noticesOf, ← freezings_add h.frozen g.frozen, List.replicate_add]
    split <;> rfl
  all_goals rfl

/-- Parts that follow each other, where no raise-ready flag and no entry's stay in STALE goes back and forth. -/
theorem State.Told.trans (h : s.Told t) (g : t.Told u)
    (ready : ∀ i, (t.station i).ready = (s.station i).ready ∨ (t.station i).ready = (u.station i).ready)
    (stale : ∀ i, ((t.station i).state == .stale) = ((s.station i).state == .stale) ∨
      ((t.station i).state == .stale) = ((u.station i).state == .stale)) : s.Told u where
  hears := (h.hears.trans g.hears).of_eq fun k i => by
    by_cases own : k = .raiseReady
    · subst own
      exact flipped_append (ready i) _ _
    · exact noticesOf_append h g own stale i
  latched i := (h.latched i).trans (g.latched i)
  frozen := g.frozen ∘ h.frozen

theorem freezings_congr {s' t' : State} (h : s'.stats = s.stats) (g : t'.stats = t.stats) :
    s'.freezings t' = s.freezings t := by
  unfold State.freezings
  rw [h, g]

theorem newStatuses_congr {a b a' b' : Station} (h : a'.statuses = a.statuses) (g : b'.statuses = b.statuses) :
    a'.newStatuses b' = a.newStatuses b := by
  unfold Station.newStatuses
  rw [h, g]

/-- The notices two states call for, where the flags are those of two other states. -/
theorem noticesOf_congr {s' t' : State}
    (before : ∀ i, (s'.station i).ready = (s.station i).ready ∧ (s'.station i).state = (s.station i).state ∧
      (s'.station i).statuses = (s.station i).statuses) (stats : s'.stats = s.stats)
    (after : ∀ i, (t'.station i).ready = (t.station i).ready ∧ (t'.station i).state = (t.station i).state ∧
      (t'.station i).statuses = (t.station i).statuses) (stats' : t'.stats = t.stats) :
    s'.noticesOf t' = s.noticesOf t := by
  funext k i
  obtain ⟨ready, state, statuses⟩ := before i
  obtain ⟨ready', state', statuses'⟩ := after i
  cases k <;>
    simp only [State.noticesOf, ready, state, ready', state', newStatuses_congr statuses statuses',
      freezings_congr stats stats']

/-- Parts that change nothing the notices are about. -/
theorem State.Told.of_same (router : t.router = s.router) (stats : t.stats = s.stats)
    (stations : ∀ i, (t.station i).ready = (s.station i).ready ∧
      ((t.station i).state == .stale) = ((s.station i).state == .stale) ∧
      (t.station i).statuses = (s.station i).statuses) : s.Told t where
  hears := (State.Hears.nothing router).of_eq fun k i => by
    obtain ⟨ready, stale, statuses⟩ := stations i
    cases k <;> simp only [State.noticesOf, ready, stale, flipped_same, newStatuses_of_same statuses,
      List.replicate_zero, freezings_congr (s := s) (t := s) rfl stats, freezings_self, ite_self]
  latched i := .of_same (stations i).2.2
  frozen set := stats ▸ set

end

/-! ### What the statements say of the notices -/

section
variable {s t : State}

/-- A flag's notice is what `Router.readyChange` does for RAISE-READY, but for the end of the event. -/
theorem hears_flipped_ready (x : Router) (i : StationId) (before after : Bool) (p : Port) :
    (x.hears (flipped .raiseReady i before after)).AgreesAt (x.readyChange i before after) .raiseReady i p := by
  unfold flipped Router.readyChange
  split
  · exact (settle_agrees ..).symm
  · split <;> exact .refl ..

theorem hears_flipped_stale (x : Router) (k : CauseKind) (i : StationId) (a b : StationState) :
    x.hears (flipped k i (a == .stale) (b == .stale)) =
      (x.fired (if a ≠ .stale ∧ b = .stale then 1 else 0) k i).endedIf (a == .stale && b != .stale) k i := by
  cases ha : a == .stale <;> cases hb : b == .stale <;>
    simp_all [flipped, Router.hears, Router.hear, Router.fired, Router.endedIf, bne]

theorem State.Hears.readyNotice {path : CauseKind → StationId → List Notice} (h : s.Hears t path) {i : StationId}
    (own : path .raiseReady i = flipped .raiseReady i (s.station i).ready (t.station i).ready) (p : Port) :
    s.ReadyNotice t i p := by
  have heard := h.agrees .raiseReady i p
  rw [own] at heard
  exact heard.trans (hears_flipped_ready ..)

theorem State.Hears.notices {path : CauseKind → StationId → List Notice} (h : s.Hears t path) {i : StationId}
    (monitor : path .stnMonitor i = s.noticesOf t .stnMonitor i) (stale : path .stnStale i = s.noticesOf t .stnStale i)
    (freeze : path .statsFreeze 0 = s.noticesOf t .statsFreeze 0) (p : Port) : s.Notices t i p := by
  refine ⟨?_, ?_, ?_⟩
  · have heard := h.agrees .stnMonitor i p
    rwa [monitor, State.noticesOf, hears_replicate] at heard
  · have heard := h.agrees .stnStale i p
    rwa [stale, State.noticesOf, hears_flipped_stale] at heard
  · have heard := h.agrees .statsFreeze 0 p
    rwa [freeze, State.noticesOf, if_pos rfl, hears_replicate] at heard

theorem State.Told.notices (h : s.Told t) (i : StationId) (p : Port) : s.Notices t i p := h.hears.notices rfl rfl rfl p

theorem State.Told.readyNotice (h : s.Told t) (i : StationId) (p : Port) : s.ReadyNotice t i p := h.hears.readyNotice rfl p

/-- The notices of a state are those of any other with the same flags whose pending sets agree with its own. -/
theorem State.Notices.congr {s t t' : State} {i : StationId} {p : Port} (h : s.Notices t i p)
    (router : ∀ k j, t'.router.AgreesAt t.router k j p) (station : (t'.station i).state = (t.station i).state ∧
      (t'.station i).statuses = (t.station i).statuses) (stats : t'.stats = t.stats) : s.Notices t' i p := by
  obtain ⟨state, statuses⟩ := station
  refine ⟨(router _ _).trans ?_, (router _ _).trans ?_, (router _ _).trans ?_⟩
  · rw [newStatuses_congr rfl statuses]
    exact h.monitor
  · rw [state]
    exact h.stale
  · rw [stats]
    exact h.freeze

theorem State.ReadyNotice.congr {s t t' : State} {i : StationId} {p : Port} (h : s.ReadyNotice t i p)
    (router : t'.router.AgreesAt t.router .raiseReady i p) (ready : (t'.station i).ready = (t.station i).ready) :
    s.ReadyNotice t' i p := by
  unfold State.ReadyNotice
  rw [ready]
  exact router.trans h

/-- Off the pairs of its station an action gives no notice. -/
theorem noticesOf_off {s t : State} {i : StationId} (others : ∀ j, j ≠ i → t.station j = s.station j) (k : CauseKind)
    (j : StationId) (off : ownPairs i k j = false) : s.noticesOf t k j = [] := by
  have quiet : j ≠ i → s.noticesOf t k j = [] ∨ k = .statsFreeze := by
    intro other
    cases k <;> simp [State.noticesOf, others j other, flipped_same, newStatuses_of_same]
  by_cases same : j = i
  · subst same
    cases k <;> simp_all [ownPairs, State.noticesOf]
  · rcases quiet same with none | freeze
    · exact none
    · simp [ownPairs, freeze] at off

theorem State.Told.agreesOff (h : s.Told t) {i : StationId} (others : ∀ j, j ≠ i → t.station j = s.station j) :
    s.router.AgreesOff t.router (ownPairs i) := h.hears.agreesOff (noticesOf_off others)

end

end Sys2Proof.Machine

/-! PROOFS. The station operations: for each the entry it leaves, the source events it hands over and the notices it
gives. -/

namespace Sys2Proof.Machine

/-! ### An action on one station -/

/-- `t` is `s` after an action on station i that handed the source events `es` to the Statistics Unit. -/
structure State.Act (s t : State) (i : StationId) (es : List SourceEvent) : Prop where
  same : t = { s with stations := t.stations, stats := t.stats, router := t.router }
  others : ∀ j, j ≠ i → t.station j = s.station j
  stats : t.stats = (s.statEvents es).stats

theorem statEvents_append (s : State) (es fs : List SourceEvent) :
    s.statEvents (es ++ fs) = (s.statEvents es).statEvents fs := List.foldl_append

/-- A source event leaves a frozen unit frozen. -/
theorem statEvent_frozen {s : State} (x : StatSource) (m : Nat) (p : Port) (h : s.stats.frozen = true) :
    (s.statEvent x m p).stats.frozen = true := by
  rw [show s.statEvent x m p = s from if_pos h, h]

section
variable {s t u : State} {i : StationId} {es fs : List SourceEvent}

theorem State.Act.refl (s : State) (i : StationId) : s.Act s i [] := ⟨rfl, fun _ _ => rfl, rfl⟩

theorem State.Act.trans (h : s.Act t i es) (g : t.Act u i fs) : s.Act u i (es ++ fs) where
  same := by
    rw [g.same, h.same]
  others j other := (g.others j other).trans (h.others j other)
  stats := by
    rw [g.stats, statEvents_append]
    exact statEvents_stats_congr h.stats fs

/-- Two actions on one station give the notices of one, if neither its raise-ready flag nor its stay in STALE goes back
and forth. -/
theorem State.Told.join (h : s.Told t) (g : t.Told u) (act : s.Act t i es)
    (ready : (t.station i).ready = (s.station i).ready ∨ (t.station i).ready = (u.station i).ready)
    (stale : ((t.station i).state == .stale) = ((s.station i).state == .stale) ∨
      ((t.station i).state == .stale) = ((u.station i).state == .stale)) : s.Told u := by
  refine h.trans g (fun j => ?_) fun j => ?_ <;> by_cases own : j = i
  · exact own ▸ ready
  · exact .inl (by rw [act.others j own])
  · exact own ▸ stale
  · exact .inl (by rw [act.others j own])

/-- An action that hands over nothing more. -/
theorem State.Act.quiet (h : s.Act t i es) (g : t.Act u i []) : s.Act u i es := by
  simpa using h.trans g

theorem updStation_act (s : State) (i : StationId) (f : Station → Station) : s.Act (s.updStation i f) i [] :=
  ⟨rfl, fun j other => by rw [station_updStation, if_neg other.symm], rfl⟩

theorem setRouter_act (s : State) (i : StationId) (x : Router) : s.Act (s.setRouter x) i [] :=
  ⟨rfl, fun _ _ => rfl, rfl⟩

theorem updStation_setRouter_act (s : State) (i : StationId) (f : Station → Station) (x : Router) :
    s.Act ((s.updStation i f).setRouter x) i [] :=
  (updStation_act s i f).trans (setRouter_act _ i x)

theorem statEvent_act (s : State) (i : StationId) (x : StatSource) (m : Nat) (p : Port) :
    s.Act (s.statEvent x m p) i [⟨x, m, p⟩] := by
  obtain ⟨params, engine, published, stations, heldTakes, storage, ramp, ports, choices, lastClear, pending⟩ :=
    statEvent_frame s x m p
  refine ⟨?_, fun j _ => station_congr stations j, rfl⟩
  rw [← params, ← engine, ← published, ← heldTakes, ← storage, ← ramp, ← ports, ← choices, ← lastClear, ← pending]

theorem State.Act.params (h : s.Act t i es) : t.params = s.params := by rw [h.same]
theorem State.Act.engine (h : s.Act t i es) : t.engine = s.engine := by rw [h.same]
theorem State.Act.published (h : s.Act t i es) : t.published = s.published := by rw [h.same]
theorem State.Act.ramp (h : s.Act t i es) : t.ramp = s.ramp := by rw [h.same]
theorem State.Act.choices (h : s.Act t i es) : t.choices = s.choices := by rw [h.same]
theorem State.Act.halted (h : s.Act t i es) : t.halted = s.halted := halted_congr h.engine

/-- The condition of R88 after an action that left the entry in a known state. -/
theorem State.Act.readyCondition (h : s.Act t i es) {e : Station} {b : Bool} (own : t.station i = { e with ready := b })
    {s' : State} (params : s'.params = s.params) (published : s'.published = s.published) (ramp : s'.ramp = s.ramp)
    {b' : Bool} (own' : s'.station i = { e with ready := b' }) : s'.readyCondition i = t.readyCondition i :=
  readyCondition_congr (params.trans h.params.symm) (published.trans h.published.symm) (ramp.trans h.ramp.symm)
    (b := b') (by rw [own', own])

end

/-! ### Parts that give one notice or none -/

/-- A part of the Statistics Unit's: STATS-FREEZE where it freezes, and the entries as they were. -/
theorem State.Told.of_counted {s t : State} (heard : t.router = s.router.fired (s.freezings t) .statsFreeze 0)
    (same : ∀ i, t.station i = s.station i) (frozen : s.stats.frozen = true → t.stats.frozen = true) : s.Told t where
  hears := (State.Hears.of_fired heard).of_eq fun k i => by
    cases k <;>
      simp only [onlyPair, State.noticesOf, same, flipped_same, newStatuses_of_same, List.replicate_zero, reduceCtorEq,
        false_and, true_and, if_false]
    split
    · next zero => rw [zero]
    · rfl
  latched i := .of_same (by rw [same])
  frozen := frozen

theorem statEvent_told (s : State) (x : StatSource) (m : Nat) (p : Port) : s.Told (s.statEvent x m p) :=
  .of_counted (statEvent_router s x m p) (by simp) (statEvent_frozen x m p)

/-- A change of one entry that touches neither its flag nor its statuses nor its stay in STALE gives no notice. -/
theorem updStation_told (s : State) (i : StationId) (f : Station → Station)
    (ready : (f (s.station i)).ready = (s.station i).ready)
    (stale : ((f (s.station i)).state == .stale) = ((s.station i).state == .stale))
    (statuses : (f (s.station i)).statuses = (s.station i).statuses) : s.Told (s.updStation i f) := by
  refine .of_same rfl rfl fun j => ?_
  rw [station_updStation]
  split
  · next own => exact own ▸ ⟨ready, stale, statuses⟩
  · exact ⟨rfl, rfl, rfl⟩

/-- The pairs of the other stations, and STATS-FREEZE, have nothing to hear of a change of one entry alone. -/
theorem noticesOf_other {s t : State} {i : StationId} (others : ∀ j, j ≠ i → t.station j = s.station j)
    (stats : t.stats = s.stats) {k : CauseKind} {j : StationId} (h : j ≠ i ∨ k = .statsFreeze) :
    s.noticesOf t k j = [] := by
  by_cases freeze : k = .statsFreeze
  · subst freeze
    simp only [State.noticesOf, freezings_congr (s := s) (t := s) rfl stats, freezings_self, List.replicate_zero, ite_self]
  · have same := others j (h.resolve_right freeze)
    cases k <;> simp only [State.noticesOf, same, flipped_same, newStatuses_of_same, List.replicate_zero]
    exact absurd rfl freeze

/-! ### Raise-ready -/

theorem evalReady_router (s : State) (i : StationId) :
    (s.evalReady i).router = s.router.hears (flipped .raiseReady i (s.station i).ready (s.readyCondition i)) := by
  unfold State.evalReady flipped
  cases s.readyCondition i <;> cases (s.station i).ready <;> rfl

theorem evalReady_act (s : State) (i : StationId) : s.Act (s.evalReady i) i [] := by
  unfold State.evalReady
  split
  · split
    · exact .refl s i
    · exact (updStation_act s i _).trans (setRouter_act _ i _)
  · split
    · exact (updStation_act s i _).trans (setRouter_act _ i _)
    · exact .refl s i

theorem evalReady_station (s : State) (i : StationId) :
    (s.evalReady i).station i = { s.station i with ready := s.readyCondition i } := by
  rw [station_evalReady, if_pos rfl]

theorem readyCondition_evalReady (s : State) (i : StationId) : (s.evalReady i).readyCondition i = s.readyCondition i :=
  (evalReady_act s i).readyCondition (e := s.station i) (evalReady_station s i) rfl rfl rfl rfl |>.symm

theorem evalReady_told (s : State) (i : StationId) : s.Told (s.evalReady i) where
  hears := (State.Hears.of_flipped (evalReady_router s i)).of_eq fun k j => by
    by_cases own : j = i
    · subst own
      cases k <;>
        simp only [onlyPair, State.noticesOf, evalReady_station, flipped_same, newStatuses_of_same, List.replicate_zero,
          reduceCtorEq, false_and, and_self, if_true, if_false]
      exact (noticesOf_other (k := .statsFreeze) (evalReady_act s j).others (by simp) (.inr rfl)).symm
    · rw [noticesOf_other (evalReady_act s i).others (by simp) (.inl own), onlyPair, if_neg fun h => own h.2]
  latched j := by
    rw [station_evalReady]
    split <;> exact .of_same rfl
  frozen h := by simpa using h

/-! ### The end of an interlock (R73) -/

/-- An entry after the worst case of R73: an open record is closed at the larger of applied and granted ceiling. -/
def Station.worst (e : Station) : Station :=
  match e.interlock with
  | none => e
  | some r => { e with applied := max e.applied r.granted, interlock := none }

/-- The source event of the end of an entry's interlock, if one is open (R73). -/
def Station.endEvents (e : Station) (i : StationId) : List SourceEvent :=
  match e.interlock with
  | none => []
  | some r => [⟨.interlockEnd, r.granted - e.applied, stationPort i⟩]

theorem worst_of_none {e : Station} (h : e.interlock = none) : e.worst = e := by
  simp only [Station.worst, h]

theorem worst_of_some {e : Station} {r : Interlock} (h : e.interlock = some r) :
    e.worst = { e with applied := max e.applied r.granted, interlock := none } := by
  simp only [Station.worst, h]

theorem worst_interlock (e : Station) : e.worst.interlock = none := by
  unfold Station.worst
  split
  · next closed => exact closed
  · rfl

/-- What the worst case leaves of an entry. -/
theorem worst_keeps (e : Station) : e.worst.state = e.state ∧ e.worst.ready = e.ready ∧ e.worst.statuses = e.statuses ∧
    e.worst.holding = e.holding ∧ e.worst.staleDuration = e.staleDuration ∧ e.worst.rating = e.rating := by
  unfold Station.worst
  split <;> exact ⟨rfl, rfl, rfl, rfl, rfl, rfl⟩

theorem endEvents_of_none {e : Station} (h : e.interlock = none) (i : StationId) : e.endEvents i = [] := by
  simp only [Station.endEvents, h]

theorem endRecord_of_none {s : State} {i : StationId} (h : (s.station i).interlock = none) : s.endRecord i = s := by
  simp only [State.endRecord, h]

theorem endRecord_of_some {s : State} {i : StationId} {r : Interlock} (h : (s.station i).interlock = some r) :
    s.endRecord i = (s.updStation i Station.worst).statEvent .interlockEnd (r.granted - (s.station i).applied)
      (stationPort i) := by
  simp only [State.endRecord, h]
  rw [updStation_congr (worst_of_some h).symm]

theorem endRecord_station (s : State) (i : StationId) : (s.endRecord i).station i = (s.station i).worst := by
  cases h : (s.station i).interlock with
  | none => rw [endRecord_of_none h, worst_of_none h]
  | some r => simp only [endRecord_of_some h, statEvent_reads, station_updStation, if_true]

theorem endRecord_act (s : State) (i : StationId) : s.Act (s.endRecord i) i ((s.station i).endEvents i) := by
  cases h : (s.station i).interlock with
  | none =>
    rw [endRecord_of_none h, endEvents_of_none h]
    exact .refl s i
  | some r =>
    rw [endRecord_of_some h, Station.endEvents, h]
    exact (updStation_act s i _).trans (statEvent_act _ i _ _ _)

theorem endRecord_told (s : State) (i : StationId) : s.Told (s.endRecord i) := by
  cases h : (s.station i).interlock with
  | none =>
    rw [endRecord_of_none h]
    exact .of_same rfl rfl fun _ => ⟨rfl, rfl, rfl⟩
  | some r =>
    rw [endRecord_of_some h]
    obtain ⟨state, ready, statuses, -⟩ := worst_keeps (s.station i)
    exact (updStation_told s i _ ready (by rw [state]) statuses).trans (statEvent_told ..)
      (fun j => .inr (by simp)) fun j => .inr (by simp)

theorem cancelInterlock_of_none {s : State} {i : StationId} (h : (s.station i).interlock = none) :
    s.cancelInterlock i = s := by
  simp only [State.cancelInterlock, h, Option.isSome_none, Bool.false_eq_true, if_false]

theorem cancelInterlock_of_some {s : State} {i : StationId} (h : (s.station i).interlock.isSome = true) :
    s.cancelInterlock i = (s.endRecord i).evalReady i := if_pos h

theorem cancelInterlock_act (s : State) (i : StationId) : s.Act (s.cancelInterlock i) i ((s.station i).endEvents i) := by
  unfold State.cancelInterlock
  split
  · exact (endRecord_act s i).quiet (evalReady_act _ i)
  · next closed =>
    rw [endEvents_of_none (by simpa using closed)]
    exact .refl s i

theorem cancelInterlock_station (s : State) (i : StationId) : ∃ b, (s.cancelInterlock i).station i =
    { (s.station i).worst with ready := b } ∧
      (b = (s.station i).ready ∨ b = (s.cancelInterlock i).readyCondition i) := by
  cases h : (s.station i).interlock with
  | none =>
    rw [cancelInterlock_of_none h, worst_of_none h]
    exact ⟨_, rfl, .inl rfl⟩
  | some r =>
    rw [cancelInterlock_of_some (h ▸ rfl), evalReady_station, endRecord_station]
    exact ⟨_, rfl, .inr (readyCondition_evalReady ..).symm⟩

theorem cancelInterlock_told (s : State) (i : StationId) : s.Told (s.cancelInterlock i) := by
  unfold State.cancelInterlock
  split
  · have ended := endRecord_station s i
    refine (endRecord_told s i).trans (evalReady_told _ i) (fun j => .inl ?_) (fun j => .inl ?_) <;>
      by_cases own : j = i
    · rw [own, ended, (worst_keeps _).2.1]
    · rw [(endRecord_act s i).others j own]
    · rw [own, ended, (worst_keeps _).1]
    · rw [(endRecord_act s i).others j own]
  · exact .of_same rfl rfl fun _ => ⟨rfl, rfl, rfl⟩

/-! ### A change of an entry's state (R52) -/

/-- An entry that goes to another state, but for raise-ready: leaving ONLINE ends an open interlock by the worst case,
leaving STALE clears the stale duration. -/
def Station.moved (e : Station) (new : StationState) : Station :=
  { (if e.state = .online then e.worst else e) with
    state := new, staleDuration := if e.state = .stale then 0 else e.staleDuration }

/-- The source events of an entry that goes to another state: leaving ONLINE ends an open interlock. -/
def Station.moveEvents (e : Station) (new : StationState) (i : StationId) : List SourceEvent :=
  if e.state = .online ∧ new ≠ .online then e.endEvents i else []

theorem setEntryState_same {s : State} {i : StationId} {new : StationState} (h : (s.station i).state = new) :
    s.setEntryState i new = s := if_pos h

theorem setEntryState_of_online {s : State} {i : StationId} {new : StationState} (h : (s.station i).state = .online)
    (changed : new ≠ .online) :
    s.setEntryState i new =
      ((s.updStation i fun e => { e with state := new }).cancelInterlock i).evalReady i := by
  simp only [State.setEntryState, h, changed.symm, if_true, if_false, reduceCtorEq]

theorem setEntryState_of_stale {s : State} {i : StationId} {new : StationState} (h : (s.station i).state = .stale)
    (changed : new ≠ .stale) :
    s.setEntryState i new =
      ((s.updStation i fun e => { e with state := new, staleDuration := 0 }).conditionEnded .stnStale i).evalReady i := by
  simp only [State.setEntryState, h, changed.symm, if_true, if_false, reduceCtorEq, updStation_updStation]

theorem setEntryState_of_other {s : State} {i : StationId} {new : StationState} (changed : (s.station i).state ≠ new)
    (online : (s.station i).state ≠ .online) (stale : (s.station i).state ≠ .stale) :
    s.setEntryState i new = (s.updStation i fun e => { e with state := new }).evalReady i := by
  simp only [State.setEntryState, changed, online, stale, if_false]

/-- The entry a change of state leaves: as `Station.moved` says, with raise-ready found in the new state. -/
theorem setEntryState_station {s : State} {i : StationId} {new : StationState} (changed : (s.station i).state ≠ new) :
    (s.setEntryState i new).station i =
      { (s.station i).moved new with ready := (s.setEntryState i new).readyCondition i } := by
  by_cases online : (s.station i).state = .online
  · obtain ⟨b, ended, -⟩ := cancelInterlock_station (s.updStation i fun e => { e with state := new }) i
    rw [setEntryState_of_online online (online ▸ changed.symm), readyCondition_evalReady, evalReady_station, ended,
      station_updStation, if_pos rfl]
    simp only [Station.moved, Station.worst, online, if_true, reduceCtorEq, if_false]
    split <;> rfl
  · by_cases stale : (s.station i).state = .stale
    · rw [setEntryState_of_stale stale (stale ▸ changed.symm), readyCondition_evalReady, evalReady_station]
      simp [Station.moved, stale]
    · rw [setEntryState_of_other changed online stale, readyCondition_evalReady, evalReady_station]
      simp [Station.moved, online, stale]

theorem setEntryState_act (s : State) (i : StationId) (new : StationState) :
    s.Act (s.setEntryState i new) i ((s.station i).moveEvents new i) := by
  by_cases changed : (s.station i).state = new
  · rw [setEntryState_same changed, Station.moveEvents, if_neg fun h => h.2 (changed.symm.trans h.1)]
    exact .refl s i
  · by_cases online : (s.station i).state = .online
    · have other : new ≠ .online := online ▸ (Ne.symm changed)
      have ended := cancelInterlock_act (s.updStation i fun e => { e with state := new }) i
      rw [station_updStation, if_pos rfl] at ended
      rw [setEntryState_of_online online other, Station.moveEvents, if_pos ⟨online, other⟩]
      exact ((updStation_act s i _).trans ended).quiet (evalReady_act _ i)
    · rw [Station.moveEvents, if_neg fun h => online h.1]
      by_cases stale : (s.station i).state = .stale
      · rw [setEntryState_of_stale stale (stale ▸ (Ne.symm changed))]
        exact ((updStation_act s i _).trans (setRouter_act _ i _)).quiet (evalReady_act _ i)
      · rw [setEntryState_of_other changed online stale]
        exact (updStation_act s i _).quiet (evalReady_act _ i)

/-- A change of one entry that ends its stay in STALE, with the end report of STN-STALE. -/
theorem leaveStale_told {s : State} {i : StationId} {new : StationState} (h : (s.station i).state = .stale)
    (changed : new ≠ .stale) :
    s.Told ((s.updStation i fun e => { e with state := new, staleDuration := 0 }).conditionEnded .stnStale i) where
  hears := by
    have left : (new == .stale) = false := beq_eq_false_iff_ne.2 changed
    refine (State.Hears.of_flipped (k := .stnStale) (i := i) (before := true) (after := false) rfl).of_eq fun k j => ?_
    by_cases own : j = i
    · subst own
      cases k <;>
        simp [onlyPair, State.noticesOf, flipped_same, newStatuses_of_same, h, left,
          freezings_congr (s := s) (t := s), freezings_self]
    · exact (if_neg fun e => own e.2).trans
        (noticesOf_other (updStation_setRouter_act s i _ _).others rfl (.inl own)).symm
  latched j := by
    refine .of_same ?_
    simp only [conditionEnded_reads, station_updStation]
    split
    · next own => rw [own]
    · rfl
  frozen h := h

theorem setEntryState_told {s : State} {i : StationId} {new : StationState} (fresh : new ≠ .stale) :
    s.Told (s.setEntryState i new) := by
  by_cases changed : (s.station i).state = new
  · rw [setEntryState_same changed]
    exact .of_same rfl rfl fun _ => ⟨rfl, rfl, rfl⟩
  have stays : (new == .stale) = false := beq_eq_false_iff_ne.2 fresh
  by_cases stale : (s.station i).state = .stale
  · rw [setEntryState_of_stale stale fresh]
    refine (leaveStale_told stale fresh).join (evalReady_told _ i)
      ((updStation_act s i _).trans (setRouter_act _ i _)) (.inl ?_) (.inr ?_)
    · simp
    · rw [evalReady_station]
  have leaves : ((s.station i).state == .stale) = false := beq_eq_false_iff_ne.2 stale
  have moved : s.Told (s.updStation i fun e => { e with state := new }) :=
    updStation_told s i _ rfl (by simp only [stays, leaves]) rfl
  by_cases online : (s.station i).state = .online
  · rw [setEntryState_of_online online (online ▸ Ne.symm changed)]
    have closed := cancelInterlock_act (s.updStation i fun e => { e with state := new }) i
    obtain ⟨b, ended, flag⟩ := cancelInterlock_station (s.updStation i fun e => { e with state := new }) i
    have state : ((s.updStation i fun e => { e with state := new }).cancelInterlock i |>.station i).state = new := by
      rw [ended, (worst_keeps _).1]
      simp
    refine (moved.join (cancelInterlock_told _ i) (updStation_act s i _) (.inl (by simp)) (.inr ?_)).join
      (evalReady_told _ i) ((updStation_act s i _).trans closed) ?_ (.inr ?_)
    · simp [state]
    · rw [evalReady_station, ended]
      exact flag.imp (fun h => h.trans (by simp)) id
    · rw [evalReady_station]
  · rw [setEntryState_of_other changed online stale]
    refine moved.join (evalReady_told _ i) (updStation_act s i _) (.inl ?_) (.inr ?_)
    · simp
    · rw [evalReady_station]

/-! ### Monitor events (R109 to R112) -/

theorem status_bit (ev : MonEvent) (n : Nat) : (BitVec.ofNat 8 (2 ^ ev.code)).getLsbD n = decide (n = ev.code) := by
  have top : ev.code < 8 := by cases ev <;> decide
  rw [BitVec.getLsbD_ofNat, Nat.testBit_two_pow]
  by_cases same : ev.code = n
  · simp [same, same ▸ top]
  · simp [same, Ne.symm same]

/-- What an event of a monitor in a mode marks on an entry: the status, and the monitor in the holding set (R110,
R111). -/
def Station.marked (e : Station) (mode : MonMode) (ev : MonEvent) : Station :=
  { e with
    statuses := if mode = .off then e.statuses else e.statuses ||| (1 <<< ev.code)
    holding := if mode = .latched ∨ mode = .cycle then e.holding ||| (1 <<< ev.monitor.code) else e.holding }

/-- The marks of an event on a station, STN-MONITOR included (R110 to R112). -/
def State.marked (s : State) (i : StationId) (ev : MonEvent) : State :=
  if (s.params.monMode ev.monitor).joins then (s.latchStatus i ev).updStation i fun e => e.join ev.monitor
  else s.latchStatus i ev

theorem joins_iff (m : MonMode) : m.joins = true ↔ m = .latched ∨ m = .cycle := by
  cases m <;> simp [MonMode.joins]

theorem latch_eq (e : Station) (ev : MonEvent) : e.latch ev = { e with statuses := e.statuses ||| (1 <<< ev.code) } := by
  cases ev <;> rfl

theorem join_eq (e : Station) (m : Monitor) : e.join m = { e with holding := e.holding ||| (1 <<< m.code) } := by
  cases m <;> rfl

theorem latch_latched (e : Station) (ev : MonEvent) : e.Latched (e.latch ev) := fun n set => by
  simp only [Station.latch, BitVec.getLsbD_or, set, Bool.true_or]

/-- A latched status is new exactly when it was clear. -/
theorem newStatuses_latch (e : Station) (ev : MonEvent) :
    e.newStatuses (e.latch ev) = if e.status ev then 0 else 1 := by
  have new : ∀ n : Fin 8, (!e.statuses.getLsbD n.val && (e.latch ev).statuses.getLsbD n.val) =
      (decide (n.val = ev.code) && !e.status ev) := fun n => by
    simp only [Station.latch, BitVec.getLsbD_or, status_bit, Station.status]
    by_cases own : n.val = ev.code
    · cases set : e.statuses.getLsbD ev.code <;> simp [own, set]
    · cases set : e.statuses.getLsbD n.val <;> simp [own]
  simp only [Station.newStatuses, new]
  cases e.status ev <;> cases ev <;> decide

theorem latchStatus_of_off {s : State} {i : StationId} {ev : MonEvent} (h : s.params.monMode ev.monitor = .off) :
    s.latchStatus i ev = s := if_pos h

theorem latchStatus_of_on {s : State} {i : StationId} {ev : MonEvent} (h : s.params.monMode ev.monitor ≠ .off) :
    s.latchStatus i ev = (s.updStation i fun e => e.latch ev).setRouter
      (s.router.fired ((s.station i).newStatuses ((s.station i).latch ev)) .stnMonitor i) := by
  rw [newStatuses_latch]
  simp only [State.latchStatus, h, if_false]
  cases (s.station i).status ev <;> rfl

theorem latchStatus_station (s : State) (i : StationId) (ev : MonEvent) :
    (s.latchStatus i ev).station i =
      { s.station i with
        statuses := if s.params.monMode ev.monitor = .off then (s.station i).statuses
          else (s.station i).statuses ||| (1 <<< ev.code) } := by
  by_cases off : s.params.monMode ev.monitor = .off
  · rw [latchStatus_of_off off, if_pos off]
  · rw [latchStatus_of_on off, if_neg off, station_setRouter, station_updStation, if_pos rfl, latch_eq]

theorem latchStatus_act (s : State) (i : StationId) (ev : MonEvent) : s.Act (s.latchStatus i ev) i [] := by
  by_cases off : s.params.monMode ev.monitor = .off
  · rw [latchStatus_of_off off]
    exact .refl s i
  · rw [latchStatus_of_on off]
    exact (updStation_act s i _).trans (setRouter_act _ i _)

theorem latchStatus_told (s : State) (i : StationId) (ev : MonEvent) : s.Told (s.latchStatus i ev) := by
  by_cases off : s.params.monMode ev.monitor = .off
  · rw [latchStatus_of_off off]
    exact .of_same rfl rfl fun _ => ⟨rfl, rfl, rfl⟩
  rw [latchStatus_of_on off]
  refine ⟨(State.Hears.of_fired rfl).of_eq fun k j => ?_, fun j => ?_, fun h => h⟩
  · by_cases own : j = i
    · subst own
      cases k <;>
        simp only [onlyPair, State.noticesOf, station_setRouter, station_updStation, Station.latch, flipped_same,
          reduceCtorEq, false_and, and_self, if_true, if_false]
      exact (noticesOf_other (k := .statsFreeze) (updStation_setRouter_act s j _ _).others rfl (.inr rfl)).symm
    · exact (if_neg fun e => own e.2).trans
        (noticesOf_other (updStation_setRouter_act s i _ _).others rfl (.inl own)).symm
  · rw [station_setRouter, station_updStation]
    split
    · next own => exact own ▸ latch_latched _ ev
    · exact .of_same rfl

theorem marked_station (s : State) (i : StationId) (ev : MonEvent) :
    (s.marked i ev).station i = (s.station i).marked (s.params.monMode ev.monitor) ev := by
  unfold State.marked Station.marked
  split
  · next joins =>
    rw [station_updStation, if_pos rfl, latchStatus_station, join_eq, if_pos ((joins_iff _).1 joins)]
  · next joins =>
    rw [latchStatus_station, if_neg (mt (joins_iff _).2 joins)]

theorem marked_act (s : State) (i : StationId) (ev : MonEvent) : s.Act (s.marked i ev) i [] := by
  unfold State.marked
  split
  · exact (latchStatus_act s i ev).trans (updStation_act _ i _)
  · exact latchStatus_act s i ev

theorem marked_told (s : State) (i : StationId) (ev : MonEvent) : s.Told (s.marked i ev) := by
  unfold State.marked
  split
  · refine (latchStatus_told s i ev).join (updStation_told _ i _ rfl rfl rfl) (latchStatus_act s i ev) (.inl ?_)
      (.inl ?_) <;> rw [latchStatus_station]
  · exact latchStatus_told s i ev

/-- An event of a monitor marks the entry and, where R51 asks for it, makes it FAULTED with FAULT-ENTRY counted. -/
theorem monitorEvent_eq (s : State) (i : StationId) (ev : MonEvent) :
    s.monitorEvent i ev =
      if (s.station i).wouldFault (s.params.monMode ev.monitor) then
        ((s.marked i ev).setEntryState i .faulted).statEvent .faultEntry 0 (stationPort i)
      else s.marked i ev := by
  have mode : (s.latchStatus i ev).params = s.params := (latchStatus_act s i ev).params
  have holding : ((s.latchStatus i ev).station i).holding = (s.station i).holding := by rw [latchStatus_station]
  have state : ((s.latchStatus i ev).station i).state = (s.station i).state := by rw [latchStatus_station]
  unfold State.monitorEvent State.marked Station.wouldFault
  simp only [mode, holding]
  by_cases joins : (s.params.monMode ev.monitor).joins = true
  · have latched : (s.params.monMode ev.monitor == .latched || s.params.monMode ev.monitor == .cycle) = true := by
      rcases (joins_iff _).1 joins with m | m <;> rw [m] <;> rfl
    by_cases empty : (s.station i).holding = 0
    · simp only [joins, latched, empty, if_true, State.faultEntry, station_updStation, Station.join, state]
      cases (s.station i).state <;> rfl
    · simp only [joins, latched, empty, if_true, if_false, beq_eq_false_iff_ne.2 empty, Bool.and_false, Bool.false_and,
        Bool.false_eq_true]
  · have other : (s.params.monMode ev.monitor == .latched || s.params.monMode ev.monitor == .cycle) = false := by
      revert joins
      cases s.params.monMode ev.monitor <;> simp [MonMode.joins]
    simp [joins, other]

/-- The source events of a monitor event (R111). -/
def Station.faultEvents (e : Station) (mode : MonMode) (i : StationId) : List SourceEvent :=
  if e.wouldFault mode then [⟨.faultEntry, 0, stationPort i⟩] else []

theorem marked_wouldFault {e : Station} {mode : MonMode} (ev : MonEvent) (h : e.wouldFault mode = true) :
    (e.marked mode ev).state ≠ .faulted ∧ (e.marked mode ev).state = e.state := by
  refine ⟨fun faulted => ?_, rfl⟩
  have state : e.state = .faulted := faulted
  simp [Station.wouldFault, state] at h

theorem afterEvent_of_fault {e : Station} {mode : MonMode} (ev : MonEvent) (closed : e.state = .online → e.interlock = none)
    (h : e.wouldFault mode = true) : (e.marked mode ev).moved .faulted = e.afterEvent mode ev := by
  have still : (if (e.marked mode ev).state = .online then (e.marked mode ev).worst else e.marked mode ev) =
      e.marked mode ev := by
    split
    · next online => exact worst_of_none (closed online)
    · rfl
  unfold Station.moved
  rw [still]
  simp [Station.afterEvent, Station.marked, h]

theorem afterEvent_of_no_fault {e : Station} {mode : MonMode} (ev : MonEvent) (h : e.wouldFault mode = false) :
    e.afterEvent mode ev = e.marked mode ev := by
  simp [Station.afterEvent, Station.marked, h]

/-- The entry an event of a monitor leaves; FAULTED is never ready to raise. -/
theorem monitorEvent_station {s : State} {i : StationId} (ev : MonEvent)
    (closed : (s.station i).state = .online → (s.station i).interlock = none) :
    (s.monitorEvent i ev).station i =
      { (s.station i).afterEvent (s.params.monMode ev.monitor) ev with
        ready := if (s.station i).wouldFault (s.params.monMode ev.monitor) then false else (s.station i).ready } := by
  rw [monitorEvent_eq]
  cases fault : (s.station i).wouldFault (s.params.monMode ev.monitor) with
  | true =>
    have changed : ((s.marked i ev).station i).state ≠ .faulted := by
      rw [marked_station]
      exact (marked_wouldFault ev fault).1
    have moved := setEntryState_station changed
    rw [marked_station, afterEvent_of_fault ev closed fault] at moved
    have unready : ((s.marked i ev).setEntryState i .faulted).readyCondition i = false :=
      readyCondition_of_not_online (by rw [moved]; simp [Station.afterEvent, fault])
    rw [if_pos rfl, (statEvent_reads ..).2.1, moved, unready]
    rfl
  | false =>
    rw [if_neg (by decide), marked_station, afterEvent_of_no_fault ev fault]
    rfl

theorem monitorEvent_act {s : State} {i : StationId} (ev : MonEvent)
    (closed : (s.station i).state = .online → (s.station i).interlock = none) :
    s.Act (s.monitorEvent i ev) i ((s.station i).faultEvents (s.params.monMode ev.monitor) i) := by
  rw [monitorEvent_eq, Station.faultEvents]
  split
  · have moved := setEntryState_act (s.marked i ev) i .faulted
    have still : ((s.marked i ev).station i).moveEvents .faulted i = [] := by
      rw [marked_station]
      unfold Station.moveEvents
      split
      · next online => exact endEvents_of_none (closed online.1) i
      · rfl
    rw [still] at moved
    exact ((marked_act s i ev).trans moved).trans (statEvent_act _ i _ _ _)
  · exact marked_act s i ev

theorem monitorEvent_told (s : State) (i : StationId) (ev : MonEvent) : s.Told (s.monitorEvent i ev) := by
  rw [monitorEvent_eq]
  split
  · next fault =>
    have entry := marked_station s i ev
    refine ((marked_told s i ev).join (setEntryState_told (by decide)) (marked_act s i ev) (.inl ?_) (.inl ?_)).join
      (statEvent_told ..) ((marked_act s i ev).trans (setEntryState_act _ i _)) (.inr ?_) (.inr ?_)
    · rw [entry]
      rfl
    · rw [entry]
      rfl
    · simp
    · simp
  · exact marked_told s i ev

/-! ### An interlock's end with a monitor event (R73, R74) -/

/-- The event's end of an interlock by the worst case, on an entry: what R73 leaves but for raise-ready. -/
theorem respondEnd_station {s : State} {i : StationId} (ev : MonEvent)
    (closed : (s.station i).state = .online → (s.station i).interlock = none) :
    (s.respondEnd i ev).station i =
      { (s.station i).afterEvent (s.params.monMode ev.monitor) ev with ready := (s.respondEnd i ev).readyCondition i } := by
  rw [State.respondEnd, readyCondition_evalReady, evalReady_station, monitorEvent_station ev closed]

theorem respondEnd_act {s : State} {i : StationId} (ev : MonEvent)
    (closed : (s.station i).state = .online → (s.station i).interlock = none) :
    s.Act (s.respondEnd i ev) i ((s.station i).faultEvents (s.params.monMode ev.monitor) i) :=
  (monitorEvent_act ev closed).quiet (evalReady_act _ i)

/-- A monitor event that clears raise-ready does so because the entry is FAULTED, so that the evaluation behind it finds
it clear. -/
theorem respondEnd_told {s : State} {i : StationId} (ev : MonEvent)
    (closed : (s.station i).state = .online → (s.station i).interlock = none) : s.Told (s.respondEnd i ev) := by
  have entry := monitorEvent_station ev closed
  refine (monitorEvent_told s i ev).join (evalReady_told _ i) (monitorEvent_act ev closed) ?_ (.inr ?_)
  · cases fault : (s.station i).wouldFault (s.params.monMode ev.monitor) with
    | true =>
      have unready : (s.monitorEvent i ev).readyCondition i = false :=
        readyCondition_of_not_online (by rw [entry]; simp [Station.afterEvent, fault])
      right
      rw [State.respondEnd, evalReady_station, unready, entry, fault]
      rfl
    | false =>
      left
      rw [entry, fault]
      rfl
  · rw [State.respondEnd, evalReady_station]

theorem breakInterlock_of_some {s : State} {i : StationId} {r : Interlock} (h : (s.station i).interlock = some r)
    (ev : MonEvent) : s.breakInterlock i ev = (s.endRecord i).respondEnd i ev := if_pos (h ▸ rfl)

theorem breakInterlock_of_none {s : State} {i : StationId} (h : (s.station i).interlock = none) (ev : MonEvent) :
    s.breakInterlock i ev = s := if_neg (by simp [h])

section
variable {s : State} {i : StationId} {r : Interlock} (h : (s.station i).interlock = some r) (ev : MonEvent)
include h

theorem breakInterlock_station :
    (s.breakInterlock i ev).station i =
      { (s.station i).worst.afterEvent (s.params.monMode ev.monitor) ev with
        ready := (s.breakInterlock i ev).readyCondition i } := by
  have closed := respondEnd_station (s := s.endRecord i) (i := i) ev fun _ => by
    rw [endRecord_station, worst_interlock]
  rwa [endRecord_station, (endRecord_act s i).params, ← breakInterlock_of_some h] at closed

theorem breakInterlock_act : s.Act (s.breakInterlock i ev) i
    ((s.station i).endEvents i ++ (s.station i).faultEvents (s.params.monMode ev.monitor) i) := by
  have responds := respondEnd_act (s := s.endRecord i) (i := i) ev fun _ => by
    rw [endRecord_station, worst_interlock]
  obtain ⟨state, -, -, holding, -⟩ := worst_keeps (s.station i)
  rw [endRecord_station, (endRecord_act s i).params, Station.faultEvents, Station.wouldFault, state, holding] at responds
  rw [breakInterlock_of_some h]
  exact (endRecord_act s i).trans responds

theorem breakInterlock_told : s.Told (s.breakInterlock i ev) := by
  obtain ⟨state, ready, -⟩ := worst_keeps (s.station i)
  rw [breakInterlock_of_some h]
  refine (endRecord_told s i).join (respondEnd_told ev fun _ => by rw [endRecord_station, worst_interlock])
    (endRecord_act s i) (.inl ?_) (.inl ?_) <;> rw [endRecord_station]
  · exact ready
  · rw [state]

end

end Sys2Proof.Machine

/-! PROOFS. The requests that act on one station: what such a request leaves once it is answered, and LEAVE, PARK, UNPARK,
FAULT-CLEAR, early reports and the end of an interlock at a taking. -/

namespace Sys2Proof.Machine

/-! ### A request answered after an action on one station -/

/-- `t` is what a request leaves that is answered after an action on station i: `u` is the state of the action, `es` its
source events, `r` the request on port p and `x` its answer. -/
structure State.Concluded (s t u : State) (i : StationId) (es : List SourceEvent) (p : Port) (r : Request) (x : Reply) :
    Prop where
  same : t = { (s.updStation i fun _ => u.station i).replyOn p r.body.kind r.tag x.code x.payload with
    stats := t.stats, router := t.router }
  station : t.station i = u.station i
  ready : t.readyCondition i = u.readyCondition i
  stats : t.stats = (s.statEvents es).stats
  differs : s.router.DiffersOnly t.router (ownPairs i)
  notices : ∀ q, s.Notices t i q
  readyNotice : ∀ q, s.ReadyNotice t i q

section
variable {s u : State} {i : StationId} {es : List SourceEvent}

/-- The mark of a FAULT-CLEAR counts for no notice. -/
theorem State.Told.of_nextEvent (h : s.nextEvent.Told u) : s.Told u where
  hears := (show s.Hears u (s.nextEvent.noticesOf u) from h.hears).of_eq fun k i => by cases k <;> rfl
  latched := h.latched
  frozen := h.frozen

theorem State.Act.stations_eq (act : s.Act u i es) : u.stations = put s.stations i (u.station i) := by
  apply table_ext
  intro j
  rw [look_put]
  split
  · next own => rw [own]; rfl
  · next other => exact act.others j (Ne.symm other)

/-- A request whose service is an action on one station, taken where no interlock ends first, leaves the action's state
with the answer; the pending sets come to order at the event's end. -/
theorem exec_of_action {c : Instr} {p : Port} {r : Request} {x : Reply} (h : s.Listening p)
    (hc : requestOf c = some (p, r)) (unbroken : s.nextEvent.takingEnds p r.body = s.nextEvent)
    (hb : serveBody s.nextEvent p r = answered (u, x)) (hr : r.body ≠ .engHalt) (act : s.nextEvent.Act u i es) :
    ∃ t, exec c s = .next t ∧
      t = { (s.updStation i fun _ => u.station i).replyOn p r.body.kind r.tag x.code x.payload with
        stats := t.stats, router := t.router } ∧
      t.station i = u.station i ∧ t.readyCondition i = u.readyCondition i ∧ t.stats = u.stats ∧
      t.router = u.router.settle := by
  have marked : u.lastClear = none := by rw [act.same]; rfl
  have arrived : exec c s = .next (u.replyOn p r.body.kind r.tag x.code x.payload).endEvent := by
    rw [exec_of_requestOf hc, request_of_listening h hr, State.serve, unbroken, hb, ← pushAnswer_replyOn marked]
    rfl
  have whole : u = { s with
      stations := put s.stations i (u.station i), stats := u.stats, router := u.router, lastClear := none } :=
    act.same.trans (by rw [act.stations_eq]; rfl)
  have same : u.replyOn p r.body.kind r.tag x.code x.payload =
      { (s.updStation i fun _ => u.station i).replyOn p r.body.kind r.tag x.code x.payload with
        stats := u.stats, router := u.router } :=
    congrArg (fun w : State => w.replyOn p r.body.kind r.tag x.code x.payload) whole
  refine ⟨_, arrived, ?_, rfl, readyCondition_congr (b := (u.station i).ready) rfl rfl rfl rfl, rfl, rfl⟩
  rw [same]
  rfl

theorem State.Act.stats_of_nextEvent (act : s.nextEvent.Act u i es) : u.stats = (s.statEvents es).stats :=
  act.stats.trans (statEvents_stats_congr (s := s.nextEvent) (t := s) rfl es)

/-- The notices of an action are those of the request it serves. -/
theorem exec_of_act {c : Instr} {p : Port} {r : Request} {x : Reply} (h : s.Listening p)
    (hc : requestOf c = some (p, r)) (unbroken : s.nextEvent.takingEnds p r.body = s.nextEvent)
    (hb : serveBody s.nextEvent p r = answered (u, x)) (hr : r.body ≠ .engHalt) (act : s.nextEvent.Act u i es)
    (told : s.nextEvent.Told u) :
    ∃ t, exec c s = .next t ∧ s.Concluded t u i es p r x := by
  obtain ⟨t, arrived, same, station, ready, stats, router⟩ := exec_of_action h hc unbroken hb hr act
  have agrees : ∀ q k j, t.router.AgreesAt u.router k j q := fun q k j => router ▸ settle_agrees u.router k j q
  have told' : s.Told u := told.of_nextEvent
  refine ⟨t, arrived, same, station, ready, stats.trans act.stats_of_nextEvent, ?_, fun q => ?_, fun q => ?_⟩
  · rw [router]
    exact ((told'.agreesOff act.others).trans (settle_agreesOff ..)).differsOnly h.quiet.settled fun q =>
      endEvent_settled u q
  · exact (told'.notices i q).congr (agrees q) (by rw [station]; exact ⟨rfl, rfl⟩) stats
  · exact (told'.readyNotice i q).congr (agrees q _ _) (by rw [station])

end

/-- Only an open interlock of an ONLINE entry hands over an event when the entry goes to another state. -/
theorem moveEvents_of_closed {e : Station} (h : e.state ≠ .online ∨ e.interlock = none) (new : StationState)
    (i : StationId) : e.moveEvents new i = [] := by
  unfold Station.moveEvents
  split
  · next leaves => exact endEvents_of_none (h.resolve_left (not_not.2 leaves.1)) i
  · rfl

/-! ### LEAVE -/

/-- The entry that LEAVE leaves, but for raise-ready (R54). -/
def Station.emptied (e : Station) : Station :=
  { e with meas := 0, avail := 0, applied := 0, age := 0, park := none, overshootRun := 0, staleDuration := 0 }

theorem serveLeave_of_present {s : State} {i : StationId} (h : (s.station i).state ≠ .absent) :
    serveLeave s i = ((s.setEntryState i .absent).updStation i Station.emptied, { code := .ok, payload := 0 }) :=
  if_neg h

theorem leave_station {s : State} {i : StationId} (h : (s.station i).state ≠ .absent) :
    ((s.setEntryState i .absent).updStation i Station.emptied).station i =
      { (s.station i) with
        state := .absent, meas := 0, avail := 0, applied := 0, age := 0, park := none, overshootRun := 0,
        staleDuration := 0, ready := false
        interlock := if (s.station i).state = .online then none else (s.station i).interlock } := by
  have moved := setEntryState_station h
  have unready : (s.setEntryState i .absent).readyCondition i = false :=
    readyCondition_of_not_online (by rw [moved]; exact (by decide : StationState.absent ≠ .online))
  rw [station_updStation, if_pos rfl, moved, unready]
  by_cases online : (s.station i).state = .online
  · simp only [Station.emptied, Station.moved, online, if_true, Station.worst]
    split
    · next closed => simp [closed]
    · rfl
  · simp only [Station.emptied, Station.moved, online, if_false]

theorem leave_act (s : State) (i : StationId) :
    s.Act ((s.setEntryState i .absent).updStation i Station.emptied) i ((s.station i).moveEvents .absent i) :=
  (setEntryState_act s i .absent).quiet (updStation_act _ i Station.emptied)

theorem leave_told (s : State) (i : StationId) : s.Told ((s.setEntryState i .absent).updStation i Station.emptied) :=
  (setEntryState_told (by decide)).join (updStation_told _ i _ rfl rfl rfl) (setEntryState_act s i .absent)
    (.inr (by simp [Station.emptied])) (.inr (by simp [Station.emptied]))

/-- LEAVE and CEIL-APPLY meet an open interlock themselves (R74). -/
theorem takingEnds_of_own (s : State) (i : StationId) (b : Body) (h : b = .leave ∨ ∃ echo, b = .ceilApply echo) :
    s.takingEnds (stationPort i) b = s := by
  rw [State.takingEnds, roleOf_stationPort]
  rcases h with rfl | ⟨echo, rfl⟩ <;> rfl

theorem serveLeave_of_absent {s : State} {i : StationId} (h : (s.station i).state = .absent) :
    serveLeave s i = (s, { code := .ok, payload := 0 }) := if_pos h

theorem serveStorageLeave_of_absent {s : State} (h : s.storage.state = .absent) :
    serveStorageLeave s = (s, { code := .ok, payload := 0 }) := if_pos h

theorem serveStorageLeave_of_present {s : State} (h : s.storage.state ≠ .absent) :
    serveStorageLeave s =
      ((s.setStorage { s.storage with state := .absent, meas := 0, age := 0 }).setRouter
          (if s.storage.state = .stale then s.router.conditionEnded .storeStale 0 else s.router),
        { code := .ok, payload := 0 }) := by
  simp only [serveStorageLeave, h, if_false, State.leaveStorageStale]
  split <;> rfl

theorem exec_leave_storage {s u : State} {tag : Byte} {x : Reply} (h : s.Listening storagePort)
    (served : serveStorageLeave s.nextEvent = (u, x)) (settled : ∀ q, (look u.router.sets q).fresh = []) :
    exec (.leave storagePort tag) s = .next (u.replyOn storagePort 2 tag x.code x.payload) := by
  have frame := serveStorageLeave_frame s.nextEvent
  rw [served] at frame
  obtain ⟨-, -, -, -, -, -, -, -, -, marked, -⟩ := frame
  exact exec_of_settled_answer (r := { tag := tag, body := .leave }) (serves_storage h) rfl (by simp)
    (congrArg answered served) marked settled

/-- A request that an interlock on the port does not keep from being answered, and that leaves the sets settled. -/
theorem exec_of_unbroken {s u : State} {c : Instr} {p : Port} {r : Request} {x : Reply} (h : s.Listening p)
    (hc : requestOf c = some (p, r)) (unbroken : s.nextEvent.takingEnds p r.body = s.nextEvent)
    (hb : serveBody s.nextEvent p r = answered (u, x)) (hr : r.body ≠ .engHalt) (marked : u.lastClear = none)
    (settled : ∀ q, (look u.router.sets q).fresh = []) :
    exec c s = .next (u.replyOn p r.body.kind r.tag x.code x.payload) := by
  rw [exec_of_requestOf hc, request_of_listening h hr, State.serve, unbroken, hb, ← replyOn_endEvent settled,
    ← pushAnswer_replyOn marked]
  rfl

/-- Settles O12: the entry leaves its state with the notices of R52 (`setEntryState_told`), and an interlock that stood
open ends by the worst case (`setEntryState_act`). -/
theorem leaveMakesAbsent : Obligations.LeaveMakesAbsent := by
  refine ⟨fun s i tag h => ?_, fun s tag h => ⟨fun absent => ?_, fun present => ?_⟩⟩
  · have unbroken := takingEnds_of_own s.nextEvent i .leave (.inl rfl)
    have served : serveBody s.nextEvent (stationPort i) { tag := tag, body := .leave } =
        answered (serveLeave s.nextEvent i) := by
      simp only [serveBody, roleOf_stationPort]
    refine ⟨fun absent => ?_, fun present => ?_⟩
    · rw [serveLeave_of_absent (s := s.nextEvent) absent] at served
      exact exec_of_unbroken h (c := .leave (stationPort i) tag) rfl unbroken served (by simp) rfl h.quiet.settled
    rw [serveLeave_of_present (s := s.nextEvent) present] at served
    obtain ⟨t, arrived, done⟩ := exec_of_act h (c := .leave (stationPort i) tag) rfl unbroken served (by simp)
      (leave_act _ i) (leave_told _ i)
    have events : t.stats = (s.statEvents ((s.station i).moveEvents .absent i)).stats := done.stats
    refine ⟨t, arrived, ?_, fun r online opened => ?_, fun closed => ?_, done.differs, fun q =>
      ⟨done.notices q, done.readyNotice q⟩⟩
    · refine done.same.trans ?_
      rw [leave_station (s := s.nextEvent) present]
      rfl
    · rw [events, Station.moveEvents, if_pos ⟨online, by decide⟩, Station.endEvents, opened]
      rfl
    · rw [events, moveEvents_of_closed closed]
      rfl
  · exact exec_leave_storage h (serveStorageLeave_of_absent (s := s.nextEvent) absent) h.quiet.settled
  · refine exec_leave_storage h (serveStorageLeave_of_present (s := s.nextEvent) present) fun q => ?_
    rw [setRouter_router]
    split
    · exact conditionEnded_settled h.quiet.settled _ _ q
    · exact h.quiet.settled q

/-! ### TELEMETRY of an ABSENT entry, and an early report -/

theorem serveTelemetry_of_absent {s : State} {i : StationId} (h : (s.station i).state = .absent)
    (meas avail : BitVec 16) : serveTelemetry s i meas avail = (s, refuse .refusedState) := if_pos h

theorem serveTelemetry_of_early {s : State} {i : StationId} (h : (s.station i).state ≠ .absent)
    (early : isEarly s.params (s.station i).age = true) (meas avail : BitVec 16) :
    serveTelemetry s i meas avail = reportReply (s.monitorEvent i .early) i .okIgnored := by
  simp only [serveTelemetry, h, early, if_true, if_false]

theorem closed_of_serves {s : State} {i : StationId} (h : s.Serves (stationPort i)) : (s.station i).interlock = none := by
  have unlocked := h.unlocked
  simpa only [State.locked, roleOf_stationPort, Option.isSome_eq_false_iff, Option.isNone_iff_eq_none] using unlocked

theorem statEvents_faultEvents (s : State) (e : Station) (mode : MonMode) (i : StationId) :
    s.statEvents (e.faultEvents mode i) =
      if e.wouldFault mode then s.statEvent .faultEntry 0 (stationPort i) else s := by
  unfold Station.faultEvents
  split <;> rfl

/-- Settles O13: an early report is one monitor event on an entry with no interlock open (`monitorEvent_station`,
`monitorEvent_told`). -/
theorem telemetryRefusedOrEarly : Obligations.TelemetryRefusedOrEarly := by
  intro s i tag meas avail h p e w
  have unbroken (b : Body) := takingEnds_of_unlocked (s := s.nextEvent) h.unlocked b
  have served : serveBody s.nextEvent p { tag := tag, body := .telemetry meas avail } =
      answered (serveTelemetry s.nextEvent i meas avail) := by
    simp only [serveBody, p, roleOf_stationPort]
  refine ⟨fun absent => ?_, fun present within early => ?_⟩
  · rw [serveTelemetry_of_absent (s := s.nextEvent) absent] at served
    exact exec_of_unbroken h.listening (c := .telemetry p tag meas avail) rfl (unbroken _) served (by simp) rfl
      h.listening.quiet.settled
  have closed : (s.nextEvent.station i).state = .online → (s.nextEvent.station i).interlock = none :=
    fun _ => closed_of_serves (s := s.nextEvent) (serves_setLastClear h none)
  have entry : (s.nextEvent.monitorEvent i .early).station i =
      { e.afterEvent w .early with ready := if e.wouldFault w then false else e.ready } :=
    monitorEvent_station (s := s.nextEvent) .early closed
  rw [serveTelemetry_of_early (s := s.nextEvent) present (by
    simp only [isEarly, Bool.and_eq_true, decide_eq_true_eq]; exact ⟨within, early⟩)] at served
  obtain ⟨t, arrived, done⟩ := exec_of_act h.listening (c := .telemetry p tag meas avail) rfl (unbroken _) served (by simp)
    (monitorEvent_act (s := s.nextEvent) .early closed) (monitorEvent_told _ i .early)
  refine ⟨t, arrived, ?_, ?_, done.differs, fun q => ⟨done.notices q, done.readyNotice q⟩⟩
  · refine done.same.trans ?_
    rw [entry]
    rfl
  · rw [done.stats]
    exact congrArg State.stats (statEvents_faultEvents s e w i)

/-! ### PARK and UNPARK -/

theorem servePark_of_range {s : State} {station : Byte} (h : 9 < station.toNat) (ceiling : BitVec 16) :
    servePark s station ceiling = (s, refuse .refusedRange) := by
  simp only [servePark, index?_of_le (show 10 ≤ station.toNat from h)]

theorem servePark_of_absent {s : State} {station : Byte} {i : StationId} (h : station.toNat = i.val)
    (absent : (s.station i).state = .absent) (ceiling : BitVec 16) :
    servePark s station ceiling = (s, refuse .refusedState) := by
  simp only [servePark, index?_of_eq h, absent, if_true]

/-- The entry that PARK leaves (R63), but for what its change of state does. -/
def Station.parkAt (c : Nat) (e : Station) : Station := { e with park := some c }

/-- The state that PARK leaves. -/
def State.parkEntry (s : State) (i : StationId) (c : Nat) : State :=
  (s.setEntryState i .parked).updStation i (Station.parkAt c)

/-- The entry that PARK leaves of one, in one record (R63, R85). -/
def Station.parkedFrom (e : Station) (c : Nat) : Station :=
  { e with
    state := .parked, park := some c
    applied := match e.state, e.interlock with
      | .online, some r => max e.applied r.granted
      | _, _ => e.applied
    interlock := if e.state = .online then none else e.interlock
    staleDuration := if e.state = .stale then 0 else e.staleDuration
    ready := if e.state = .parked then e.ready else false }

theorem parkAt_of_parked {e : Station} (h : e.state = .parked) (c : Nat) : e.parkAt c = e.parkedFrom c := by
  obtain ⟨⟩ := e
  obtain rfl : _ = StationState.parked := h
  rfl

theorem parkAt_moved {e : Station} (h : e.state ≠ .parked) (c : Nat) :
    Station.parkAt c { e.moved .parked with ready := false } = e.parkedFrom c := by
  unfold Station.parkedFrom
  rw [if_neg h]
  by_cases online : e.state = .online
  · cases opened : e.interlock <;> simp [Station.parkAt, Station.moved, Station.worst, online, opened]
  · have applied : (match e.state, e.interlock with
        | .online, some r => max e.applied r.granted
        | _, _ => e.applied) = e.applied := by
      cases state : e.state <;> first | rfl | exact absurd state online
    rw [applied, if_neg online]
    simp only [Station.parkAt, Station.moved, if_neg online]

theorem parkEntry_station (s : State) (i : StationId) (c : Nat) :
    (s.parkEntry i c).station i = (s.station i).parkedFrom c := by
  rw [State.parkEntry, station_updStation, if_pos rfl]
  by_cases parked : (s.station i).state = .parked
  · rw [setEntryState_same parked, parkAt_of_parked parked]
  have moved := setEntryState_station parked
  have unready : (s.setEntryState i .parked).readyCondition i = false :=
    readyCondition_of_not_online (by rw [moved]; exact (by decide : StationState.parked ≠ .online))
  rw [moved, unready, parkAt_moved parked]

theorem parkEntry_act (s : State) (i : StationId) (c : Nat) :
    s.Act (s.parkEntry i c) i ((s.station i).moveEvents .parked i) :=
  (setEntryState_act s i .parked).quiet (updStation_act _ i (Station.parkAt c))

theorem parkEntry_told (s : State) (i : StationId) (c : Nat) : s.Told (s.parkEntry i c) :=
  (setEntryState_told (by decide)).join (updStation_told _ i _ rfl rfl rfl) (setEntryState_act s i .parked)
    (.inr (by simp [State.parkEntry, Station.parkAt])) (.inr (by simp [State.parkEntry, Station.parkAt]))

theorem servePark_of_present {s : State} {station : Byte} {i : StationId} (h : station.toNat = i.val)
    (present : (s.station i).state ≠ .absent) (ceiling : BitVec 16) :
    servePark s station ceiling =
      (s.parkEntry i (min ceiling.toNat (s.station i).rating),
        { code := if (s.station i).rating < ceiling.toNat then .okClamped else .ok
          payload := f8 5 ++ f16 (min ceiling.toNat (s.station i).rating) ++ (0 : BitVec 40) }) := by
  have state : ((s.parkEntry i (min ceiling.toNat (s.station i).rating)).station i).state = .parked := by
    rw [parkEntry_station]
    rfl
  have code : StationState.code ((s.parkEntry i (min ceiling.toNat (s.station i).rating)).station i).state = 5 := by
    rw [state]
    rfl
  simp only [servePark, index?_of_eq h, present, if_false]
  rw [← code]
  rfl

theorem serveUnpark_of_range {s : State} {station : Byte} (h : 9 < station.toNat) :
    serveUnpark s station = (s, refuse .refusedRange) := by
  simp only [serveUnpark, index?_of_le (show 10 ≤ station.toNat from h)]

theorem serveUnpark_of_unparked {s : State} {station : Byte} {i : StationId} (h : station.toNat = i.val)
    (unparked : (s.station i).state ≠ .parked) : serveUnpark s station = (s, refuse .refusedState) := by
  simp only [serveUnpark, index?_of_eq h, unparked, if_false]

theorem serveUnpark_of_parked {s : State} {station : Byte} {i : StationId} (h : station.toNat = i.val)
    (parked : (s.station i).state = .parked) :
    serveUnpark s station =
      ((s.updStation i fun e => { e with state := e.joinState, park := none, ready := false }).setRouter
          (s.router.readyChange i (s.station i).ready false),
        { code := .ok, payload := f8 (s.station i).joinState.code ++ (0 : BitVec 56) }) := by
  have here : (s.updStation i fun e => { e with park := none }).station i = { s.station i with park := none } := by
    rw [station_updStation, if_pos rfl]
  have joined : Station.joinState { s.station i with park := none } = (s.station i).joinState := rfl
  have entered : (s.updStation i fun e => { e with park := none }).enterJoining i = _ :=
    setEntryState_of_offline (by rw [here, parked]; exact (joinState_ne (by decide) (by decide)).symm)
      (by rw [here, parked]; decide) (by rw [here, parked]; decide)
      (joinState_ne (by decide) (by decide))
  rw [here, updStation_updStation, updStation_router, joined] at entered
  simp only [serveUnpark, index?_of_eq h, parked, if_true, entered, stateReply, station_setRouter, station_updStation]
  rfl

theorem exec_of_supervisor {s u : State} {c : Instr} {tag : Byte} {b : Body} {x : Reply} (h : s.Listening supervisorPort)
    (hc : requestOf c = some (supervisorPort, { tag := tag, body := b })) (hr : b ≠ .engHalt)
    (hb : serveBody s.nextEvent supervisorPort { tag := tag, body := b } = answered (u, x)) (marked : u.lastClear = none)
    (settled : ∀ q, (look u.router.sets q).fresh = []) :
    exec c s = .next (u.replyOn supervisorPort b.kind tag x.code x.payload) :=
  exec_of_settled_answer (serves_supervisor h) hc hr hb marked settled

/-- Settles O36: PARK is a change of state (`parkEntry_station`, `parkEntry_told`); UNPARK leaves PARKED, which gives no
notice but that of raise-ready (`setEntryState_of_offline`). -/
theorem parkAndUnpark : Obligations.ParkAndUnpark := by
  refine ⟨fun s tag station ceiling h => ?_, fun s tag station h => ?_⟩
  · have served : serveBody s.nextEvent supervisorPort { tag := tag, body := .park station ceiling } =
        answered (servePark s.nextEvent station ceiling) := rfl
    refine ⟨fun range => ?_, fun i number => ⟨fun absent => ?_, fun present => ?_⟩⟩
    · rw [servePark_of_range range] at served
      exact exec_of_supervisor h rfl (by simp) served rfl h.quiet.settled
    · rw [servePark_of_absent (s := s.nextEvent) number absent] at served
      exact exec_of_supervisor h rfl (by simp) served rfl h.quiet.settled
    rw [servePark_of_present (s := s.nextEvent) number present] at served
    obtain ⟨t, arrived, done⟩ := exec_of_act h (c := .park supervisorPort tag station ceiling) rfl rfl served (by simp)
      (parkEntry_act _ i _) (parkEntry_told _ i _)
    have events : t.stats = (s.statEvents ((s.station i).moveEvents .parked i)).stats := done.stats
    refine ⟨t, arrived, ?_, fun r online opened => ?_, fun closed => ?_, done.differs, fun q =>
      ⟨done.notices q, done.readyNotice q⟩⟩
    · refine done.same.trans ?_
      rw [parkEntry_station]
      rfl
    · rw [events, Station.moveEvents, if_pos ⟨online, by decide⟩, Station.endEvents, opened]
      rfl
    · rw [events, moveEvents_of_closed closed]
      rfl
  · have served : serveBody s.nextEvent supervisorPort { tag := tag, body := .unpark station } =
        answered (serveUnpark s.nextEvent station) := rfl
    refine ⟨fun range => ?_, fun i number => ⟨fun unparked => ?_, fun parked => ?_⟩⟩
    · rw [serveUnpark_of_range range] at served
      exact exec_of_supervisor h rfl (by simp) served rfl h.quiet.settled
    · rw [serveUnpark_of_unparked (s := s.nextEvent) number unparked] at served
      exact exec_of_supervisor h rfl (by simp) served rfl h.quiet.settled
    · rw [serveUnpark_of_parked (s := s.nextEvent) number parked] at served
      exact exec_of_supervisor h rfl (by simp) served rfl (readyChange_settled h.quiet.settled _ _ _)

end Sys2Proof.Machine

/-! PROOFS. FAULT-CLEAR, and the end of an interlock at the taking of another request. -/

namespace Sys2Proof.Machine

/-! ### FAULT-CLEAR of a station -/

/-- The entry that FAULT-CLEAR leaves of a station's entry (R116), in one record. -/
def Station.faultCleared (e : Station) : Station :=
  { e with
    statuses := 0, holding := 0, overshootRun := 0
    state := if e.state = .faulted then .joining else e.state
    ready := if e.state = .faulted then false else e.ready }

/-- The router after FAULT-CLEAR of a station, before the end report. -/
def State.unfaultRouter (s : State) (i : StationId) : Router :=
  s.router.readyChange i (s.station i).ready (s.station i).faultCleared.ready

theorem faultClear_of_faulted {s : State} {i : StationId} (h : (s.station i).state = .faulted) :
    (s.updStation i fun e => { e with statuses := 0, holding := 0, overshootRun := 0 }).setEntryState i .joining =
      (s.updStation i Station.faultCleared).setRouter (s.unfaultRouter i) := by
  have here : (s.updStation i fun e => { e with statuses := 0, holding := 0, overshootRun := 0 }).station i =
      { s.station i with statuses := 0, holding := 0, overshootRun := 0 } := by
    rw [station_updStation, if_pos rfl]
  rw [setEntryState_of_offline (by rw [here, h]; decide) (by rw [here, h]; decide) (by rw [here, h]; decide) (by decide),
    here, updStation_updStation, updStation_router,
    updStation_congr (g := Station.faultCleared) (by simp only [Station.faultCleared, h, if_true])]
  simp only [State.unfaultRouter, Station.faultCleared, h, if_true]

theorem faultClear_of_unfaulted {s : State} {i : StationId} (h : (s.station i).state ≠ .faulted) :
    s.updStation i (fun e => { e with statuses := 0, holding := 0, overshootRun := 0 }) =
      (s.updStation i Station.faultCleared).setRouter (s.unfaultRouter i) := by
  rw [updStation_congr (g := Station.faultCleared) (by simp only [Station.faultCleared, h, if_false])]
  simp only [State.unfaultRouter, Station.faultCleared, h, if_false, readyChange_same]
  rfl

/-- FAULT-CLEAR of a station: the entry cleared, the station marked, STN-MONITOR ended when there was something to
clear. -/
theorem serveFaultClear_eq (s : State) (i : StationId) :
    serveFaultClear s i =
      (((s.updStation i Station.faultCleared).setRouter
          (if (s.station i).statuses = 0 ∧ (s.station i).holding = 0 then s.unfaultRouter i
            else (s.unfaultRouter i).conditionEnded .stnMonitor i)).setLastClear (some i),
        { code := .ok, payload := f8 (s.station i).faultCleared.state.code ++ (0 : BitVec 56) }) := by
  have anything : ((s.station i).statuses != 0 || (s.station i).holding != 0) =
      !decide ((s.station i).statuses = 0 ∧ (s.station i).holding = 0) := by
    rw [Bool.decide_and, Bool.not_and]
    rfl
  have cleared : (if (s.station i).state = .faulted then
        ((s.updStation i fun e => { e with statuses := 0, holding := 0, overshootRun := 0 }).setLastClear
          (some i)).setEntryState i .joining
      else (s.updStation i fun e => { e with statuses := 0, holding := 0, overshootRun := 0 }).setLastClear (some i)) =
      ((s.updStation i Station.faultCleared).setRouter (s.unfaultRouter i)).setLastClear (some i) := by
    split
    · next h => exact faultClear_of_faulted (s := s.setLastClear (some i)) h
    · next h => exact congrArg (State.setLastClear · (some i)) (faultClear_of_unfaulted h)
  simp only [serveFaultClear, cleared, anything]
  by_cases nothing : (s.station i).statuses = 0 ∧ (s.station i).holding = 0
  · simp only [nothing, and_self, decide_true, Bool.not_true, Bool.false_eq_true, if_false, if_true, stateReply,
      station_setLastClear, station_setRouter, station_updStation]
  · simp only [nothing, decide_false, Bool.not_false, if_false, if_true, stateReply, conditionEnded_reads,
      station_setLastClear, station_setRouter, station_updStation]
    rfl

/-! ### FAULT-CLEAR of the plant -/

theorem serveFaultClearNamed_of_range {s : State} {station : Byte} (h : 9 < station.toNat) (other : station ≠ 255) :
    serveFaultClearNamed s station = (s, refuse .refusedRange) := by
  simp only [serveFaultClearNamed, index?_of_le (show 10 ≤ station.toNat from h)]
  exact if_neg other

theorem serveFaultClearNamed_of_station {s : State} {station : Byte} {i : StationId} (h : station.toNat = i.val)
    (other : station ≠ 255) : serveFaultClearNamed s station = serveFaultClear s i := by
  simp only [serveFaultClearNamed, index?_of_eq h]
  exact if_neg other

/-- Two end reports remove the CLEAR entries of both pairs. -/
theorem rampEnds_eq {x : Router} (settled : ∀ q, (look x.sets q).fresh = []) :
    (x.conditionEnded .rampSoft 0).conditionEnded .rampHard 0 =
      { x with
        sets := tabulate fun p =>
          { entries := (look x.sets p).entries.filter fun e =>
              !(e.release == .clear && e.inst == 0 && (e.kind == .rampSoft || e.kind == .rampHard))
            fresh := [] } } := by
  have keep : ∀ e : PendingEntry, (!(e.isFor .rampHard 0 && e.release == .clear) &&
      !(e.isFor .rampSoft 0 && e.release == .clear)) =
      !(e.release == .clear && e.inst == 0 && (e.kind == .rampSoft || e.kind == .rampHard)) := fun e => by
    simp only [PendingEntry.isFor]
    cases e.release == .clear <;> cases e.inst == 0 <;> cases e.kind == .rampSoft <;> cases e.kind == .rampHard <;> rfl
  simp only [Router.conditionEnded, look_tabulate, settled, List.filter_nil, List.filter_filter, keep]

/-- Settles O37: a station's FAULT-CLEAR is `serveFaultClear_eq`; the plant's clears the statuses and makes two end
reports (`rampEnds_eq`). -/
theorem faultClearStationAndPlant : Obligations.FaultClearStationAndPlant := by
  refine ⟨fun s tag station h other => ?_, fun s tag h => ?_⟩
  · have served : serveBody s.nextEvent supervisorPort { tag := tag, body := .faultClear station } =
        answered (serveFaultClearNamed s.nextEvent station) := rfl
    refine ⟨fun range => ?_, fun i number => ?_⟩
    · rw [serveFaultClearNamed_of_range range other] at served
      exact exec_of_supervisor h rfl (by simp) served rfl h.quiet.settled
    · rw [serveFaultClearNamed_of_station number other, serveFaultClear_eq] at served
      have settled : ∀ q, (look (s.unfaultRouter i).sets q).fresh = [] := readyChange_settled h.quiet.settled _ _ _
      rw [exec_of_requestOf rfl, request_of_answered (serves_supervisor h) (by simp) served, endEvent_of_settled]
      · rfl
      · intro q
        show (look (ite _ _ _ : Router).sets q).fresh = []
        split
        · exact settled q
        · exact conditionEnded_settled settled _ _ q
  · have served : serveBody s.nextEvent supervisorPort { tag := tag, body := .faultClear 255 } =
        answered (serveFaultClearPlant s.nextEvent) := rfl
    have settled : ∀ q, (look ((s.router.conditionEnded .rampSoft 0).conditionEnded .rampHard 0).sets q).fresh = [] :=
      conditionEnded_settled (conditionEnded_settled h.quiet.settled _ _) _ _
    have exec_eq := exec_of_supervisor (c := .faultClearPlant supervisorPort tag) h rfl (by simp) served rfl settled
    rw [exec_eq, ← rampEnds_eq h.quiet.settled]
    rfl

end Sys2Proof.Machine

/-! PROOFS. The taking of requests: one taking after the other as R170 chooses, arrivals at a port that listens, at a BUSY
one and at a full one, and what an open interlock means for a taking. -/

namespace Sys2Proof.Machine

/-! ### One taking of the handlers -/

theorem ableToTake_iff (s : State) (p : Port) : s.AbleToTake p ↔ s.canTake p = true := by
  simp only [State.canTake, Bool.and_eq_true, beq_iff_eq, Bool.not_eq_true', List.isEmpty_eq_false_iff,
    decide_eq_true_eq]
  exact ⟨fun h => ⟨⟨h.idle, h.waiting⟩, h.room⟩, fun h => ⟨h.1.1, h.1.2, h.2⟩⟩

theorem runHandlers_of_quiet {s : State} (h : ∀ q, s.canTake q = false) : s.runHandlers = s := pump_of_quiet h _

theorem filter_canTake_mem {s : State} {p : Port} : p ∈ allPorts.filter s.canTake ↔ s.canTake p = true := by
  rw [List.mem_filter]
  exact and_iff_right (mem_allPorts p)

/-- A port that can take keeps the handlers from stopping: one of the able ports takes, the only one without a choice. -/
theorem runHandlers_of_able {s : State} {p : Port} (h : s.canTake p = true) :
    ∃ q n, s.canTake q = true ∧ ((∀ k, s.canTake k = true → k = q) → n = s.choices) ∧
      s.runHandlers = (State.takeOne { s with choices := n } q).runHandlers := by
  have waits : ∀ {q}, s.canTake q = true → ∀ n, (State.takeOne { s with choices := n } q).queued < s.queued :=
    fun able n => takeOne_queued (s := { s with choices := n }) (canTake_waiting able)
  obtain ⟨fuel, enough⟩ := Nat.exists_eq_succ_of_ne_zero (Nat.ne_of_gt (Nat.lt_of_le_of_lt (Nat.zero_le _)
    (waits h s.choices)))
  have rest : ∀ {q}, s.canTake q = true → ∀ n, (State.takeOne { s with choices := n } q).pump fuel =
      (State.takeOne { s with choices := n } q).runHandlers := fun able n =>
    pump_enough (by have := waits able n; omega)
  have able : ∀ q ∈ allPorts.filter s.canTake, s.canTake q = true := fun q => filter_canTake_mem.1
  have here : p ∈ allPorts.filter s.canTake := filter_canTake_mem.2 h
  unfold State.runHandlers
  rw [enough]
  cases ready : allPorts.filter s.canTake with
  | nil => simp [ready] at here
  | cons q others =>
    rw [ready] at able
    cases others with
    | nil =>
      have takes := able q (by simp)
      simp only [State.pump, ready]
      exact ⟨q, s.choices, takes, fun _ => rfl, rest takes s.choices⟩
    | cons k others =>
      have distinct : (q :: k :: others).Nodup := ready ▸ List.Nodup.filter _ (by decide)
      obtain ⟨place, within⟩ : ∃ n, n = (s.choose (q :: k :: others).length).1 := ⟨_, rfl⟩
      have bound : place < (q :: k :: others).length := within ▸ Nat.mod_lt _ (by simp)
      have chosen : s.canTake ((q :: k :: others).getD place q) = true := by
        rw [List.getD_eq_getElem?_getD, List.getElem?_eq_getElem bound]
        exact able _ (List.getElem_mem _)
      simp only [State.pump, ready, ← within]
      refine ⟨_, s.choices + 1, chosen, fun only => ?_, rest chosen (s.choices + 1)⟩
      exact absurd ((only q (able q (by simp))).trans (only k (able k (by simp))).symm)
        fun same => (List.nodup_cons.1 distinct).1 (same ▸ List.mem_cons_self ..)

/-- Where one port alone can take, it takes and no choice is made. -/
theorem runHandlers_of_only {s : State} {p : Port} (h : s.canTake p = true) (only : ∀ k, s.canTake k = true → k = p) :
    s.runHandlers = (s.takeOne p).runHandlers := by
  obtain ⟨q, n, able, single, takes⟩ := runHandlers_of_able h
  obtain rfl := only q able
  rw [takes, single only]

/-! ### The frame that R170 chooses -/

theorem isUrgent_iff (x : Params) (k : Byte) : x.isUrgent k = true ↔ ∃ n, look x.urgent n = some k := by
  simp only [Params.isUrgent, List.any_eq_true, List.mem_finRange, true_and, beq_iff_eq]

theorem isUrgent_eq_false_iff (x : Params) (k : Byte) : x.isUrgent k = false ↔ ∀ n, look x.urgent n ≠ some k := by
  rw [← Bool.not_eq_true, isUrgent_iff, not_exists]

theorem locked_stationPort (s : State) (i : StationId) : s.locked (stationPort i) = (s.station i).interlock.isSome := by
  simp only [State.locked, roleOf_stationPort]

theorem locked_iff (s : State) (p : Port) :
    s.locked p = true ↔ ∃ i, p = stationPort i ∧ (s.station i).interlock.isSome = true := by
  constructor
  · intro h
    cases role : roleOf p with
    | station i =>
      obtain rfl := roleOf_eq_station role
      exact ⟨i, rfl, by rwa [locked_stationPort] at h⟩
    | storage => simp [State.locked, role] at h
    | supervisor => simp [State.locked, role] at h
  · rintro ⟨i, rfl, opened⟩
    rwa [locked_stationPort]

theorem unlocked_iff (s : State) (p : Port) :
    s.locked p = false ↔ ∀ i, p = stationPort i → (s.station i).interlock = none := by
  rw [← Bool.not_eq_true, locked_iff, not_exists]
  exact forall_congr' fun i => by rw [not_and, Bool.not_eq_true, Option.isSome_eq_false_iff, Option.isNone_iff_eq_none]

/-- R170's choice stands behind the frames before it. -/
theorem State.Chooses.chosen {s : State} {p : Port} {older newer : List Request} {w : Request}
    (h : s.Chooses p older w newer) : s.chosen p = older.length := by
  unfold State.chosen
  cases locked : s.locked p with
  | true =>
    rw [h.paired ((locked_iff s p).1 locked)]
    rfl
  | false =>
    rw [if_neg (by decide), h.place]
    rcases h.urgent ((unlocked_iff s p).1 locked) with ⟨urgent, calm⟩ | ⟨rfl, calm⟩
    · have first : (older ++ w :: newer).findIdx? (fun r => s.params.isUrgent r.body.kind) = some older.length := by
        rw [List.findIdx?_append, List.findIdx?_eq_none_iff.2 fun x m => (isUrgent_eq_false_iff ..).2 (calm x m)]
        simp [List.findIdx?_cons, (isUrgent_iff ..).2 urgent]
      rw [first]
      rfl
    · rw [List.nil_append, List.findIdx?_eq_none_iff.2 fun x m => (isUrgent_eq_false_iff ..).2 (calm x m)]
      rfl

theorem State.Chooses.takeOne {s : State} {p : Port} {older newer : List Request} {w : Request}
    (h : s.Chooses p older w newer) : s.takeOne p = s.taking p older w newer := by
  have here : (s.port p).requests[older.length]? = some w := by rw [h.place]; simp
  have without : (s.port p).requests.eraseIdx older.length = older ++ newer := by
    rw [h.place, List.eraseIdx_append_of_length_le le_rfl]
    simp
  unfold State.takeOne State.taking
  simp only [h.chosen, here]
  rw [State.updPort, without]
  rfl

theorem exists_chooses {s : State} {p : Port} (h : (s.port p).requests ≠ []) :
    ∃ older w newer, s.Chooses p older w newer := by
  have bound := chosen_lt h
  refine ⟨(s.port p).requests.take (s.chosen p), (s.port p).requests[s.chosen p],
    (s.port p).requests.drop (s.chosen p + 1), ?_, fun paired => ?_, fun unpaired => ?_⟩
  · rw [List.cons_getElem_drop_succ, List.take_append_drop]
  · have first : s.chosen p = 0 := if_pos ((locked_iff s p).2 paired)
    rw [first, List.take_zero]
  · have found : s.chosen p = ((s.port p).requests.findIdx? fun r => s.params.isUrgent r.body.kind).getD 0 :=
      if_neg (by rw [(unlocked_iff s p).2 unpaired]; decide)
    cases search : (s.port p).requests.findIdx? fun r => s.params.isUrgent r.body.kind with
    | some n =>
      rw [search, Option.getD_some] at found
      obtain ⟨_, urgent, calm⟩ := List.findIdx?_eq_some_iff_getElem.1 search
      refine .inl ⟨(isUrgent_iff ..).1 (by simpa only [found] using urgent), fun x m => ?_⟩
      obtain ⟨k, below, rfl⟩ := List.getElem_of_mem m
      rw [List.getElem_take]
      rw [List.length_take] at below
      exact (isUrgent_eq_false_iff ..).1 (by simpa using calm k (by omega))
    | none =>
      rw [search, Option.getD_none] at found
      refine .inr ⟨by rw [found, List.take_zero], fun x m => (isUrgent_eq_false_iff ..).1 ?_⟩
      rw [List.cons_getElem_drop_succ] at m
      exact List.findIdx?_eq_none_iff.1 search x (List.mem_of_mem_drop m)

/-! ### A request that waits or is dropped -/

/-- A port that cannot take keeps a request that reaches it in its queue. -/
theorem arrive_of_room {s : State} {p : Port} {r : Request} (quiet : s.Quiet)
    (stuck : (s.port p).handler = .busy ∨ 4 ≤ (s.port p).replies.length)
    (room : (s.port p).requests.length < (s.port p).depth.frames) :
    s.arrive p r = s.updPort p fun x => { x with requests := x.requests ++ [r] } := by
  have queued : s.enqueue p r = s.updPort p fun x => { x with requests := x.requests ++ [r] } := if_pos room
  have settled : (s.enqueue p r).endEvent = s.enqueue p r :=
    endEvent_of_settled (by simpa [queued] using quiet.settled)
  unfold State.arrive
  rw [settled, queued]
  refine runHandlers_of_quiet fun q => ?_
  by_cases own : p = q
  · subst own
    rcases stuck with busy | full
    · simp [State.canTake, busy]
    · simp [State.canTake, replyRoom, full]
  · simpa [State.canTake, own] using quiet.taken q

theorem statEvent_canTake (s : State) (x : StatSource) (m : Nat) (p q : Port) :
    (s.statEvent x m p).endEvent.canTake q = s.canTake q := by
  simp [State.canTake]

/-- A full queue drops a request that reaches it. -/
theorem arrive_of_full {s : State} {p : Port} {r : Request} (quiet : s.Quiet)
    (full : (s.port p).depth.frames ≤ (s.port p).requests.length) :
    s.arrive p r = ((s.updPort p fun x => { x with drop := true }).statEvent .drop 0 p).endEvent := by
  have dropped : s.enqueue p r = (s.updPort p fun x => { x with drop := true }).statEvent .drop 0 p :=
    if_neg (Nat.not_lt.2 full)
  unfold State.arrive
  rw [dropped]
  refine runHandlers_of_quiet fun q => ?_
  rw [statEvent_canTake]
  by_cases own : p = q
  · subst own
    simpa [State.canTake] using quiet.taken p
  · simpa [State.canTake, own] using quiet.taken q

theorem quiet_nextEvent {s : State} (h : s.Quiet) : s.nextEvent.Quiet := ⟨h.settled, h.taken⟩

/-- Settles O8: a port that cannot take keeps or drops what reaches it (`arrive_of_room`, `arrive_of_full`), and the
handlers take one request after the other, each as R170 chooses (`runHandlers_of_able`, `exists_chooses`). -/
theorem requestWaitsOrIsDropped : Obligations.RequestWaitsOrIsDropped := by
  refine ⟨fun s c p r quiet hc stuck => ⟨fun room => ?_, fun full => ?_⟩, fun s none => ?_, fun s ⟨p, able⟩ => ?_⟩
  · rw [exec_of_requestOf hc, State.request, arrive_of_room (quiet_nextEvent quiet) stuck room]
    rfl
  · rw [exec_of_requestOf hc, State.request, arrive_of_full (quiet_nextEvent quiet) full]
    rfl
  · exact runHandlers_of_quiet fun q => by
      rw [← Bool.not_eq_true, ← ableToTake_iff]
      exact none q
  · obtain ⟨q, n, takes, single, steps⟩ := runHandlers_of_able ((ableToTake_iff s p).1 able)
    obtain ⟨older, w, newer, chooses⟩ := exists_chooses (canTake_waiting takes)
    refine ⟨q, older, w, newer, n, (ableToTake_iff s q).2 takes, chooses, fun only => ?_, ?_⟩
    · exact single fun k can => only k ((ableToTake_iff s k).2 can)
    · rw [steps, State.Chooses.takeOne (s := { s with choices := n }) ⟨chooses.place, chooses.paired, chooses.urgent⟩]

/-! ### A request that is taken as it arrives -/

/-- On a port that listens a request is the only one that can be taken, and is taken. -/
theorem arrive_taken {s : State} {p : Port} {r : Request} (h : s.Listening p) :
    s.arrive p r = (s.serve p r).endEvent.runHandlers := by
  have room : (s.port p).requests.length < (s.port p).depth.frames := by
    rw [h.empty]
    cases (s.port p).depth <;> decide
  have queued : s.enqueue p r = s.updPort p fun x => { x with requests := x.requests ++ [r] } := if_pos room
  have settled : (s.enqueue p r).endEvent = s.enqueue p r :=
    endEvent_of_settled (by simpa [queued] using h.quiet.settled)
  have port : (s.enqueue p r).port p = { s.port p with requests := [r] } := by simp [queued, h.empty]
  have able : (s.enqueue p r).canTake p = true := by simp [State.canTake, port, h.idle, h.room]
  have only : ∀ k, (s.enqueue p r).canTake k = true → k = p := fun k can => by
    by_contra other
    simp [State.canTake, queued, Ne.symm other] at can
    simpa [State.canTake, can] using h.quiet.taken k
  have chooses : (s.enqueue p r).Chooses p [] r [] := by
    refine ⟨by rw [port]; rfl, fun _ => rfl, fun _ => ?_⟩
    by_cases urgent : ∃ n, look (s.enqueue p r).params.urgent n = some r.body.kind
    · exact .inl ⟨urgent, fun x m => absurd m List.not_mem_nil⟩
    · refine .inr ⟨rfl, fun x m n named => urgent ⟨n, ?_⟩⟩
      rwa [List.mem_singleton.1 m] at named
  have back : ((s.enqueue p r).updPort p fun x => { x with requests := [] ++ [] }) = s := by
    have same : ({ s.port p with requests := [] } : PortState) = s.port p := by
      have empty := h.empty
      cases here : s.port p
      simp_all
    rw [queued, updPort_updPort]
    exact (congrArg (fun x => s.updPort p fun _ => x) same).trans (updPort_self s p)
  rw [State.arrive, settled, runHandlers_of_only able only, chooses.takeOne, State.taking, back]

/-- A service that keeps the ports lets no handler take another request. -/
theorem serve_canTake_of_kept {s : State} {p : Port} {r : Request}
    (kept : PortsKept s (serveBody (s.takingEnds p r.body) p r).1) (empty : (s.port p).requests = [])
    (quiet : ∀ q, s.canTake q = false) (q : Port) : (s.serve p r).endEvent.canTake q = false := by
  have before := canTake_of_kept kept (quiet q)
  rw [serve_eq]
  by_cases own : p = q
  · subst own
    cases (serveBody (s.takingEnds p r.body) p r).2 <;> simp [State.canTake, PortState.concluded, kept.empty p empty]
  · simpa [State.canTake, own] using before

theorem request_of_kept {s : State} {p : Port} {r : Request} (h : s.Listening p)
    (kept : PortsKept s.nextEvent (serveBody (s.nextEvent.takingEnds p r.body) p r).1) :
    s.request p r = (s.nextEvent.serve p r).endEvent := by
  rw [State.request, arrive_taken (s := s.nextEvent) (listening_setLastClear h none),
    runHandlers_of_quiet (serve_canTake_of_kept kept h.empty h.quiet.taken)]

/-- Only the supervisor's ENG-HALT lets other handlers take. -/
theorem serveBody_kept_of_role {s : State} {p : Port} {r : Request} (h : r.body = .engHalt → roleOf p ≠ .supervisor) :
    PortsKept s (serveBody s p r).1 := by
  by_cases halt : r.body = .engHalt
  · have refused : serveBody s p r = roleRefused s := by
      simp only [serveBody, halt, supervisorOnly, h halt, if_false]
    rw [refused]
    exact .of_ports rfl
  · exact serveBody_kept s p r halt

theorem request_of_role {s : State} {p : Port} {r : Request} (h : s.Listening p)
    (halt : r.body = .engHalt → roleOf p ≠ .supervisor) : s.request p r = (s.nextEvent.serve p r).endEvent :=
  request_of_kept h ((PortsKept.of_ports (takingEnds_ports ..)).trans (serveBody_kept_of_role halt))

/-! ### Refusals by kind and role -/

theorem serveBody_of_unlisted {s : State} {p : Port} {r : Request} (h : r.body.roleListed p = false) :
    serveBody s p r = roleRefused s := by
  obtain ⟨tag, body⟩ := r
  cases role : roleOf p with
  | station i =>
    obtain rfl := roleOf_eq_station role
    have small : (stationPort i).val ≤ 9 := Nat.le_of_lt_succ i.isLt
    have below : (stationPort i).val ≤ 10 := by omega
    have other : (stationPort i).val ≠ 10 := by omega
    have unsupervised : (stationPort i).val ≠ 11 := by omega
    cases body <;> simp_all [serveBody, supervisorOnly, Body.roleListed]
  | storage =>
    obtain rfl := roleOf_eq_storage role
    cases body <;> simp_all [serveBody, supervisorOnly, Body.roleListed, storagePort]
  | supervisor =>
    obtain rfl := roleOf_eq_supervisor role
    cases body <;> simp_all [serveBody, Body.roleListed, supervisorPort]

/-- Settles O9: both refusals are branches of `serveBody`, and neither lets another handler take
(`serveBody_kept_of_role`). -/
theorem undefinedKindOrWrongRoleRefused : Obligations.UndefinedKindOrWrongRoleRefused := by
  refine ⟨fun s p tag kind _ h => ?_, fun s c p r _ hc h unlisted => ?_⟩
  · exact exec_of_answer (r := { tag := tag, body := .undefined kind }) h rfl (by simp) rfl rfl rfl
  · have unbroken := takingEnds_of_unlocked (s := s.nextEvent) h.unlocked r.body
    have supervised : r.body = .engHalt → roleOf p ≠ .supervisor := fun halt role => by
      obtain rfl := roleOf_eq_supervisor role
      rw [halt] at unlisted
      cases unlisted
    rw [exec_of_requestOf hc, request_of_role h.listening supervised, State.serve, unbroken, serveBody_of_unlisted unlisted]
    exact congrArg Host.Outcome.next (endEvent_of_settled h.listening.quiet.settled)

/-! ### The end of an interlock at a taking -/

section
variable {x y z : Router} {may : CauseKind → StationId → Bool} {k : CauseKind} {i : StationId}

theorem Router.DiffersOnly.refl (x : Router) (may : CauseKind → StationId → Bool) : x.DiffersOnly x may :=
  ⟨rfl, fun _ => rfl⟩

theorem Router.DiffersOnly.trans (h : x.DiffersOnly y may) (g : y.DiffersOnly z may) : x.DiffersOnly z may :=
  ⟨g.routes.trans h.routes, fun p => (g.others p).trans (h.others p)⟩

/-- Within an event too a firing leaves the older entries of the other pairs. -/
theorem fire_differsOnly (x : Router) (h : may k i = true) (l : Bool) : x.DiffersOnly (x.fire k i l) may := by
  refine ⟨rfl, fun p => ?_⟩
  simp only [Router.fire, look_tabulate, PendingSet.deliver]
  (repeat' split) <;> first | exact filter_map_merge_off h _ _ | rfl

theorem conditionEnded_differsOnly (x : Router) (h : may k i = true) : x.DiffersOnly (x.conditionEnded k i) may := by
  refine ⟨rfl, fun p => ?_⟩
  simp only [Router.conditionEnded, look_tabulate, List.filter_filter]
  refine List.filter_congr fun e _ => ?_
  by_cases own : e.isFor k i = true
  · obtain ⟨rfl, rfl⟩ := (isFor_iff e k i).1 own
    simp only [h, Bool.not_true, Bool.false_and]
  · simp only [own, Bool.false_and, Bool.not_false, Bool.and_true]

theorem hears_differsOnly {ns : List Notice} (h : ∀ n ∈ ns, ∀ k i, n.isFor k i = true → may k i = true) (x : Router) :
    x.DiffersOnly (x.hears ns) may := by
  induction ns generalizing x with
  | nil => exact .refl x may
  | cons n ns ih =>
    have own := h n (List.mem_cons_self ..)
    refine Router.DiffersOnly.trans ?_ (ih (fun m mem => h m (List.mem_cons_of_mem _ mem)) _)
    cases n
    · exact fire_differsOnly x (own _ _ (by simp [Notice.isFor])) _
    · exact conditionEnded_differsOnly x (own _ _ (by simp [Notice.isFor]))

end

theorem State.Hears.differsOnly {s t : State} {path : CauseKind → StationId → List Notice} (h : s.Hears t path)
    {may : CauseKind → StationId → Bool} (none : ∀ k i, may k i = false → path k i = []) :
    s.router.DiffersOnly t.router may := by
  obtain ⟨ns, heard, own⟩ := h
  rw [heard]
  refine hears_differsOnly (fun n mem k i pair => ?_) _
  by_contra off
  have nothing := (own k i).trans (none k i (by simpa using off))
  exact List.filter_eq_nil_iff.1 nothing n mem pair

/-- Every request but CEIL-APPLY and LEAVE ends the interlock of its station port first (R74). -/
theorem takingEnds_of_other {s : State} {i : StationId} {b : Body} (unleft : b ≠ .leave)
    (unapplied : ∀ echo, b ≠ .ceilApply echo) :
    s.takingEnds (stationPort i) b = s.breakInterlock i .interlockErr := by
  rw [State.takingEnds, roleOf_stationPort]
  cases b <;> first | rfl | exact absurd rfl unleft | exact absurd rfl (unapplied _)

/-- Settles O10: the taking ends the interlock with INTERLOCK-ERR (`breakInterlock_station`, `breakInterlock_told`), and
the request is served on what that left, where nothing is open on the port. -/
theorem otherRequestEndsInterlock : Obligations.OtherRequestEndsInterlock := by
  intro s c i r open_ hc h opened unleft unapplied
  have ends : s.nextEvent.takingEnds (stationPort i) r.body = s.nextEvent.breakInterlock i .interlockErr :=
    takingEnds_of_other unleft unapplied
  have act := breakInterlock_act (s := s.nextEvent) opened .interlockErr
  have entry := breakInterlock_station (s := s.nextEvent) opened .interlockErr
  have told := (breakInterlock_told (s := s.nextEvent) opened .interlockErr).of_nextEvent
  have closed : (s.nextEvent.breakInterlock i .interlockErr).locked (stationPort i) = false := by
    rw [locked_stationPort, entry]
    simp [Station.afterEvent, worst_interlock]
  refine ⟨s.nextEvent.breakInterlock i .interlockErr, ?_, act.same, ?_, fun q => ⟨told.notices i q, told.readyNotice i q⟩,
    act.others, ?_, ?_⟩
  · rw [exec_of_requestOf hc, request_of_role h (fun _ => by simp), serve_eq, serve_eq, ends,
      takingEnds_of_unlocked closed]
  · exact told.hears.differsOnly (noticesOf_off act.others)
  · rw [entry]
    exact congrArg (fun e : Station => { e.afterEvent s.params.monInterlock .interlockErr with
      ready := (s.nextEvent.breakInterlock i .interlockErr).readyCondition i }) (worst_of_some opened)
  · have fault : (s.station i).worst.wouldFault s.params.monInterlock =
        (s.station i).wouldFault s.params.monInterlock := by
      obtain ⟨state, -, -, holding, -⟩ := worst_keeps (s.station i)
      rw [Station.wouldFault, state, holding, Station.wouldFault]
    refine act.stats.trans ((statEvents_stats_congr (s := s.nextEvent) (t := s) rfl _).trans ?_)
    rw [statEvents_append]
    show ((s.statEvents ((s.station i).endEvents i)).statEvents
      ((s.station i).faultEvents s.params.monInterlock i)).stats = _
    rw [statEvents_faultEvents, Station.endEvents, opened, ← fault, worst_of_some opened]
    rfl

end Sys2Proof.Machine

/-! PROOFS. Source events of the same instant: whether a list of events freezes the unit does not depend on its order, and
what parts of one instant leave in whatever order they come. -/

namespace Sys2Proof.Machine

/-! ### Whether a list of source events freezes the unit -/

/-- What a source event adds to a counter of a unit that is not frozen. -/
def Stats.adds (st : Stats) (n : Fin 8) (e : SourceEvent) : Nat :=
  (look st.counters n).eventIncrement e.source e.magnitude e.port

theorem statEvents_cons (s : State) (e : SourceEvent) (es : List SourceEvent) :
    s.statEvents (e :: es) = (s.statEvent e.source e.magnitude e.port).statEvents es := rfl

theorem statEvents_of_frozen {s : State} (h : s.stats.frozen = true) (es : List SourceEvent) : s.statEvents es = s := by
  induction es with
  | nil => rfl
  | cons e es ih => rw [statEvents_cons, show s.statEvent e.source e.magnitude e.port = s from if_pos h, ih]

theorem eventIncrement_congr {c c' : Counter} (h : c'.control = c.control) (x : StatSource) (m : Nat) (p : Port) :
    c'.eventIncrement x m p = c.eventIncrement x m p := by
  unfold Counter.eventIncrement
  rw [h]

/-- A source event to a unit that is not frozen: every counter adds, and one with freeze-on-overflow that wraps freezes
the unit. -/
theorem statEvent_of_counting {s : State} (h : s.stats.frozen = false) (e : SourceEvent) :
    (∀ n, look (s.statEvent e.source e.magnitude e.port).stats.counters n =
      (look s.stats.counters n).add (s.stats.adds n e)) ∧
    ((s.statEvent e.source e.magnitude e.port).stats.frozen = true ↔
      ∃ n, (look s.stats.counters n).freezesOn (s.stats.adds n e) = true) := by
  unfold State.statEvent Stats.adds
  rw [if_neg (by simp [h])]
  simp only
  split
  · next any =>
    simp only [statFreeze_stats, setStats_stats, h, Bool.false_eq_true, if_false, look_tabulate, implies_true, true_and,
      true_iff]
    simpa using any
  · next none =>
    simp only [setStats_stats, h, look_tabulate, implies_true, true_and, Bool.false_eq_true, false_iff]
    simpa using none

/-- A list of source events leaves the unit counting exactly when its whole sum wraps no counter with
freeze-on-overflow. -/
theorem statEvents_frozen_iff {s : State} (h : s.stats.frozen = false) (es : List SourceEvent) :
    (s.statEvents es).stats.frozen = false ↔
      ∀ n, (look s.stats.counters n).control.freezeOnOverflow = true →
        (look s.stats.counters n).value.toNat + (es.map (s.stats.adds n)).sum < 2 ^ 40 := by
  induction es generalizing s with
  | nil =>
    refine iff_of_true h fun n _ => ?_
    simpa using (look s.stats.counters n).value.isLt
  | cons e es ih =>
    obtain ⟨counters, freezes⟩ := statEvent_of_counting h e
    rw [statEvents_cons]
    cases frozen : (s.statEvent e.source e.magnitude e.port).stats.frozen with
    | true =>
      obtain ⟨n, wraps⟩ := freezes.1 frozen
      simp only [Counter.freezesOn, Counter.wraps, Bool.and_eq_true, decide_eq_true_eq] at wraps
      rw [statEvents_of_frozen frozen]
      refine iff_of_false (by simp [frozen]) fun below => ?_
      have bound := below n wraps.2
      rw [List.map_cons, List.sum_cons] at bound
      omega
    | false =>
      have calm : ∀ n, (look s.stats.counters n).control.freezeOnOverflow = true →
          (look s.stats.counters n).value.toNat + s.stats.adds n e < 2 ^ 40 := fun n own => by
        by_contra wraps
        have froze := freezes.2 ⟨n, by
          simp only [Counter.freezesOn, Counter.wraps, own, Bool.and_true, decide_eq_true_eq]; omega⟩
        simp [frozen] at froze
      have control : ∀ n, (look (s.statEvent e.source e.magnitude e.port).stats.counters n).control =
          (look s.stats.counters n).control := fun n => by rw [counters]; rfl
      have adds : ∀ n, (s.statEvent e.source e.magnitude e.port).stats.adds n = s.stats.adds n := fun n =>
        funext fun e' => eventIncrement_congr (control n) ..
      rw [ih frozen]
      refine forall_congr' fun n => ?_
      rw [control, adds, counters]
      refine imp_congr_right fun own => ?_
      have bound := calm n own
      have value : ((look s.stats.counters n).add (s.stats.adds n e)).value.toNat =
          (look s.stats.counters n).value.toNat + s.stats.adds n e := by
        simp only [Counter.add, BitVec.toNat_add, BitVec.toNat_ofNat]
        omega
      rw [value, List.map_cons, List.sum_cons]
      omega

theorem statEvents_frozen_perm (s : State) {es fs : List SourceEvent} (h : es.Perm fs) :
    (s.statEvents es).stats.frozen = (s.statEvents fs).stats.frozen := by
  cases frozen : s.stats.frozen with
  | true => rw [statEvents_of_frozen frozen, statEvents_of_frozen frozen]
  | false =>
    have sums : ∀ n, (es.map (s.stats.adds n)).sum = (fs.map (s.stats.adds n)).sum := fun n => (h.map _).sum_eq
    have same : (s.statEvents es).stats.frozen = false ↔ (s.statEvents fs).stats.frozen = false := by
      rw [statEvents_frozen_iff frozen, statEvents_frozen_iff frozen]
      simp only [sums]
    revert same
    cases (s.statEvents es).stats.frozen <;> cases (s.statEvents fs).stats.frozen <;> simp

/-! ### Parts of one instant -/

theorem Interleaves.flatMap {α β : Type} (f : α → List β) {ls : List (List α)} {order : List α}
    (h : Interleaves ls order) : Interleaves (ls.map (·.flatMap f)) (order.flatMap f) := by
  induction h with
  | done ls empty =>
    refine .done _ ?_
    rw [List.flatten_eq_nil_iff] at empty ⊢
    intro l mem
    obtain ⟨k, place, rfl⟩ := List.mem_map.1 mem
    rw [empty k place]
    rfl
  | next before after l x order _ ih =>
    have push : ∀ (xs : List β), Interleaves (before.map (·.flatMap f) ++ (xs ++ l.flatMap f) :: after.map (·.flatMap f))
        (xs ++ order.flatMap f) := by
      intro xs
      induction xs with
      | nil => simpa using ih
      | cons y ys rest => exact .next _ _ _ y _ rest
    simpa using push (f x)

theorem Interleaves.sublist {α : Type} {ls : List (List α)} {order : List α} (h : Interleaves ls order) :
    ∀ l ∈ ls, l.Sublist order := by
  induction h with
  | done ls empty =>
    intro l mem
    rw [List.flatten_eq_nil_iff.1 empty l mem]
  | next before after l x order _ ih =>
    intro k mem
    rcases List.mem_append.1 mem with first | second
    · exact (ih k (List.mem_append_left _ first)).cons x
    · rcases List.mem_cons.1 second with rfl | later
      · exact (ih l (List.mem_append_right _ (List.mem_cons_self ..))).cons_cons x
      · exact (ih k (List.mem_append_right _ (List.mem_cons_of_mem _ later))).cons x

/-- Parts of the same instant: what each part keeps of the parts done before it holds when all are done, the source
events are those of the parts in the order they came, and no choice is used up unless the unit froze. -/
theorem together_steps {α : Type} {s : State} {act : State → α → State} {parts : List (List α)}
    (f : α → List SourceEvent) {P : List α → State → Prop} (start : ∀ n, P [] { s with choices := n })
    (step : ∀ {done x rest t}, Interleaves parts (done ++ x :: rest) → P done t → P (done ++ [x]) (act t x))
    (stats : ∀ {done t}, P done t → t.stats = (s.statEvents (done.flatMap f)).stats)
    (choices : ∀ t x, (act t x).choices = t.choices) :
    ∃ order, Interleaves parts order ∧ P order (s.together act parts) ∧
      s.CountsTogether (s.together act parts) (parts.map (·.flatMap f)) ∧
      (s.stats.frozen = true ∨ (s.together act parts).stats.frozen = false →
        (s.together act parts).choices = s.choices) := by
  have all : ∀ {order}, Interleaves parts order → ∀ n, P order (order.foldl act { s with choices := n }) ∧
      (order.foldl act { s with choices := n }).choices = n := by
    intro order whole n
    have rest : ∀ rest done t, done ++ rest = order → P done t → t.choices = n →
        P order (rest.foldl act t) ∧ (rest.foldl act t).choices = n := by
      intro rest
      induction rest with
      | nil =>
        intro done t same so counted
        rw [List.append_nil] at same
        exact ⟨same ▸ so, counted⟩
      | cons x rest ih =>
        intro done t same so counted
        refine ih (done ++ [x]) _ (by simpa using same) (step (rest := rest) (same ▸ whole) so) ?_
        rw [choices, counted]
    exact rest order [] _ rfl (start n) rfl
  obtain ⟨order, n, whole, took, listed⟩ := together_order s act parts
  have here := all whole n
  rw [← took] at here
  refine ⟨order, whole, here.1, ⟨order.flatMap f, whole.flatMap f, stats here.1⟩, fun calm => ?_⟩
  rw [here.2]
  refine (listed ?_).2
  refine calm.imp id fun unfrozen => ?_
  have plain := (all (.listed parts) s.choices).1
  have perm : (parts.flatten.flatMap f).Perm (order.flatMap f) := whole.perm.symm.flatMap_right f
  have same := statEvents_frozen_perm s perm
  rw [← stats plain, ← stats here.1, unfrozen] at same
  exact same

end Sys2Proof.Machine

/-! PROOFS. The frames: what begins, completes and breaks one, and how its request half is judged. -/

namespace Sys2Proof.Machine

/-! ### FRAME_START -/

theorem statusByte_bits (attn lock drop ferr collapsed : Bool) (plant : PlantState) :
    let b := statusByte attn lock drop ferr collapsed plant
    b.getLsbD 7 = attn ∧ b.getLsbD 6 = lock ∧ b.getLsbD 5 = drop ∧ b.getLsbD 4 = ferr ∧ b.getLsbD 3 = collapsed ∧
      (b.extractLsb' 0 3).toNat = plant.code := by
  cases plant <;> revert attn lock drop ferr collapsed <;> decide

theorem make_crc (status : Byte) (a : Option Answer) :
    (AnswerHalf.make status a).crc = crc16 ((AnswerHalf.make status a).bits.extractLsb' 16 96) := by
  have message : (AnswerHalf.make status a).bits.extractLsb' 16 96 = status ++ answerBytes a := by
    simp only [AnswerHalf.bits, AnswerHalf.make]
    exact BitVec.extractLsb'_append_eq_left
  rw [message]
  rfl

theorem locked_of_not_station (s : State) {p : Port} (h : 10 ≤ p.val) : s.locked p = false := by
  rw [unlocked_iff]
  rintro i rfl
  have small : (stationPort i).val = i.val := rfl
  omega

/-- Settles O3: on an idle link the answer half of R164 is fixed from the status byte (`statusByte_bits`) and the front
of the reply queue. -/
theorem frameStartFixesAnswerHalf : Obligations.FrameStartFixesAnswerHalf := by
  refine fun s p => ⟨fun idle => ?_, fun other => ?_⟩
  · have begun : s.beginFrame p = s.nextEvent.updPort p fun x => { x with link := .inFrame (s.answerHalf p) } := by
      simp only [State.beginFrame, idle]
    obtain ⟨attn, lock, drop, ferr, collapsed, plant⟩ := statusByte_bits (s.attentionLine p) (s.locked p)
      (s.port p).drop (s.port p).ferr s.published.collapsed s.published.plant
    refine ⟨s.answerHalf p, congrArg Host.Outcome.next begun, attn, ?_, fun high => ?_, drop, ferr, collapsed, plant,
      rfl, fun none => ?_, fun a some => ?_, make_crc _ _⟩
    · rintro i rfl
      rw [← locked_stationPort]
      exact lock
    · rw [← locked_of_not_station s high]
      exact lock
    · simp only [State.answerHalf, none, List.head?_nil]
      rfl
    · simp only [State.answerHalf, some]
      rfl
  · have kept : s.beginFrame p = s := by
      unfold State.beginFrame
      split
      · next idle => exact absurd idle other
      · rfl
      · rfl
    exact congrArg Host.Outcome.next kept

/-! ### The completion of a frame whose delivery lets no handler take -/

/-- The state in which the frame's answer is delivered (R164, R165). -/
def State.delivering (s : State) (p : Port) (h : AnswerHalf) : State :=
  s.nextEvent.updPort p (PortState.delivered h)

theorem delivering_port (s : State) (p q : Port) (h : AnswerHalf) :
    (s.delivering p h).port q = if p = q then (s.port p).delivered h else s.port q := by
  rw [State.delivering, port_updPort]
  rfl

theorem delivering_quiet {s : State} (quiet : s.Quiet) {p : Port} (h : AnswerHalf)
    (stuck : (s.port p).requests = [] ∨ (s.port p).handler = .busy) : (s.delivering p h).Quiet := by
  refine ⟨quiet.settled, fun q => ?_⟩
  by_cases own : p = q
  · subst own
    rcases stuck with empty | busy
    · simp [State.canTake, delivering_port, PortState.delivered, empty]
    · simp [State.canTake, delivering_port, PortState.delivered, busy]
  · simpa [State.canTake, delivering_port, own] using quiet.taken q

theorem exec_frameComplete {s : State} {p : Port} {h : AnswerHalf} (link : (s.port p).link = .inFrame h)
    (half : BitVec 112) :
    exec (.frameComplete p half) s =
      .next (((s.delivering p h).runHandlers.judgeHalf p half).endEvent.runHandlers) := by
  show execFrameComplete p half s = _
  unfold execFrameComplete
  rw [link]
  rfl

theorem exec_frameComplete_of_calm {s : State} {p : Port} {h : AnswerHalf} (quiet : s.Quiet)
    (link : (s.port p).link = .inFrame h) (stuck : (s.port p).requests = [] ∨ (s.port p).handler = .busy)
    (half : BitVec 112) :
    exec (.frameComplete p half) s = .next (((s.delivering p h).judgeHalf p half).endEvent.runHandlers) := by
  rw [exec_frameComplete link, runHandlers_of_quiet (delivering_quiet quiet h stuck).taken]

/-- Handlers read the ports alone. -/
theorem canTake_congr {s t : State} (h : t.ports = s.ports) (q : Port) : t.canTake q = s.canTake q := by
  unfold State.canTake
  rw [port_congr h]

theorem endEvent_runHandlers_of_ports {s t : State} (quiet : s.Quiet) (ports : t.ports = s.ports) :
    t.endEvent.runHandlers = t.endEvent :=
  runHandlers_of_quiet fun q => by
    rw [canTake_congr (s := s) (by simp [ports])]
    exact quiet.taken q

/-! ### The filters' test -/

theorem statEvent_filters (s : State) (x : StatSource) (m : Nat) (p : Port) :
    (s.statEvent x m p).stats.filters = s.stats.filters := by
  unfold State.statEvent
  split
  · rfl
  · simp only
    split
    · rw [statFreeze_stats]
      split <;> rfl
    · rfl

theorem statEvents_filters (s : State) (es : List SourceEvent) :
    (s.statEvents es).stats.filters = s.stats.filters := by
  induction es generalizing s with
  | nil => rfl
  | cons e es ih => rw [statEvents_cons, ih, statEvent_filters]

/-- The source event of a filter's test (R148). -/
def State.filterEvents (s : State) (p : Port) (kind tag : Byte) (n : Fin 2) : List SourceEvent :=
  if (look s.stats.filters n).passes p kind tag then [⟨filterSource n, 0, p⟩] else []

/-- `t` is `s` after source events that the router hears of by STATS-FREEZE alone. -/
structure State.Counting (s t : State) (es : List SourceEvent) : Prop where
  stats : t.stats = (s.statEvents es).stats
  router : t.router = s.router.fired (s.freezings t) .statsFreeze 0
  frozen : s.stats.frozen = true → t.stats.frozen = true

theorem fired_add (x : Router) (n m : Nat) (k : CauseKind) (i : StationId) :
    (x.fired n k i).fired m k i = x.fired (n + m) k i := by
  simp only [← hears_replicate, ← hears_append, List.replicate_add]

theorem State.Counting.refl (s : State) : s.Counting s [] :=
  ⟨rfl, by rw [freezings_self]; rfl, id⟩

theorem State.Counting.event {s t : State} {es : List SourceEvent} (h : s.Counting t es) (x : StatSource) (m : Nat)
    (p : Port) : s.Counting (t.statEvent x m p) (es ++ [⟨x, m, p⟩]) where
  stats := by
    rw [statEvents_append]
    exact statEvent_stats_congr h.stats x m p
  router := by
    rw [statEvent_router, h.router, fired_add, freezings_add h.frozen (statEvent_frozen x m p)]
  frozen := statEvent_frozen x m p ∘ h.frozen

theorem State.Counting.filterOne {s t : State} {es : List SourceEvent} (h : s.Counting t es) (p : Port) (kind tag : Byte)
    (n : Fin 2) : s.Counting (t.filterOne p kind tag n) (es ++ s.filterEvents p kind tag n) := by
  have filters : t.stats.filters = s.stats.filters := by rw [h.stats, statEvents_filters]
  unfold State.filterOne State.filterEvents
  rw [filters]
  split
  · exact h.event _ _ _
  · simpa using h

/-- The two filters' tests in either order. -/
theorem filterFrame_counting (s : State) (p : Port) (kind tag : Byte) :
    (∃ es, s.Counting (s.filterFrame p kind tag) es) ∧
    s.CountsTogether (s.filterFrame p kind tag) [s.filterEvents p kind tag 0, s.filterEvents p kind tag 1] ∧
      (s.stats.frozen = true ∨ (s.filterFrame p kind tag).stats.frozen = false →
        (s.filterFrame p kind tag).choices = s.choices) := by
  obtain ⟨order, -, counted, together, choices⟩ := together_steps (s := s)
    (act := fun t n => t.filterOne p kind tag n) (parts := [[0], [1]]) (s.filterEvents p kind tag)
    (P := fun done t => s.Counting t (done.flatMap (s.filterEvents p kind tag)))
    (fun n => ⟨rfl, (State.Counting.refl s).router, id⟩)
    (fun _ h => by simpa using h.filterOne p kind tag _) (fun h => h.stats) (fun t n => by simp)
  exact ⟨⟨_, counted⟩, by simpa [State.filterFrame] using together, choices⟩

theorem filterFrame_eq (s : State) (p : Port) (kind tag : Byte) :
    s.filterFrame p kind tag =
      { s with
        stats := (s.filterFrame p kind tag).stats, router := (s.filterFrame p kind tag).router
        choices := (s.filterFrame p kind tag).choices } := by
  obtain ⟨params, engine, published, stations, heldTakes, storage, ramp, ports, lastClear, pending⟩ :=
    filterFrame_frame s p kind tag
  rw [← params, ← engine, ← published, ← stations, ← heldTakes, ← storage, ← ramp, ← ports, ← lastClear, ← pending]

theorem State.CountsTogether.congr {s t s' t' : State} {lists : List (List SourceEvent)} (h : s.CountsTogether t lists)
    (before : s'.stats = s.stats) (after : t'.stats = t.stats) : s'.CountsTogether t' lists := by
  obtain ⟨order, whole, stats⟩ := h
  exact ⟨order, whole, after.trans (stats.trans (statEvents_stats_congr before.symm order))⟩

/-! ### An idle frame -/

theorem judgeHalf_of_good {s : State} {p : Port} {half : BitVec 112}
    (crc : crc16 (half.extractLsb' 16 96) = half.extractLsb' 0 16) :
    s.judgeHalf p half =
      if halfKind half = idleKind then s.filterFrame p (halfKind half) (halfTag half)
      else if halfKind half = portResetKind then s.portReset p (halfTag half)
      else if s.hasRoom p then (s.filterFrame p (halfKind half) (halfTag half)).enqueue p (Request.ofHalf half)
      else s.enqueue p (Request.ofHalf half) := by
  have good : (crc16 (halfMessage half) != halfCrc half) = false := by
    rw [bne_eq_false_iff_eq]
    exact crc
  simp only [State.judgeHalf, good, Bool.false_eq_true, if_false]

/-- What the end of an event makes of a router that heard of a freeze alone. -/
theorem settle_fired_freeze {x : Router} (settled : ∀ q, (look x.sets q).fresh = []) (s t : State) :
    (x.fired (s.freezings t) .statsFreeze 0).settle =
      if s.stats.frozen = false ∧ t.stats.frozen = true then (x.fire .statsFreeze 0 false).settle else x := by
  have same : x.settle = x := congrArg State.router (endEvent_of_settled (s := s.setRouter x) settled)
  unfold State.freezings
  split
  · rfl
  · exact same

/-- Settles O4: the delivery lets no handler take, and a good idle half is tested by the filters alone
(`filterFrame_counting`). -/
theorem idleFrameDeliversAnswer : Obligations.IdleFrameDeliversAnswer := by
  intro s p h half quiet link empty crc idle
  have kind : halfKind half = idleKind := idle
  have judged : (s.delivering p h).judgeHalf p half = (s.delivering p h).filterFrame p 0 (halfTag half) := by
    rw [judgeHalf_of_good crc, if_pos kind, kind]
    rfl
  have calm := delivering_quiet quiet h (.inl empty)
  obtain ⟨⟨es, counting⟩, together, choices⟩ := filterFrame_counting (s.delivering p h) p 0 (halfTag half)
  have ports : ((s.delivering p h).filterFrame p 0 (halfTag half)).ports = (s.delivering p h).ports := by simp
  refine ⟨((s.delivering p h).filterFrame p 0 (halfTag half)).endEvent, ?_, ?_, ?_, ?_, choices⟩
  · rw [exec_frameComplete_of_calm quiet link (.inl empty), judged, endEvent_runHandlers_of_ports calm ports]
  · exact congrArg State.endEvent (filterFrame_eq ..)
  · exact together.congr (s' := s) rfl rfl
  · have router := congrArg Router.settle counting.router
    exact router.trans (settle_fired_freeze quiet.settled _ _)

/-! ### Frames in error -/

theorem judgeHalf_of_bad {s : State} {p : Port} {half : BitVec 112}
    (crc : crc16 (half.extractLsb' 16 96) ≠ half.extractLsb' 0 16) :
    s.judgeHalf p half = (s.setFerr p).statEvent .crcError 0 p :=
  if_pos (bne_iff_ne.2 crc)

/-- A port's delivery forgets its link, so that a frame begun just before its end is the frame without a start. -/
theorem delivering_begun (s : State) (p : Port) (h h' : AnswerHalf) :
    (s.nextEvent.updPort p fun x => { x with link := .inFrame h' }).delivering p h = s.delivering p h :=
  updPort_updPort s.nextEvent p (fun x => { x with link := .inFrame h' }) (PortState.delivered h)

/-- Settles O5: a half in error is discarded with FERR set and one source event, and no handler can take after the
delivery. -/
theorem erroneousFramesSetFerr : Obligations.ErroneousFramesSetFerr := by
  refine fun s p quiet => ⟨fun h half link empty crc => ?_, fun h link => ?_, fun idle u begun => ?_, fun waits => ?_⟩
  · rw [exec_frameComplete_of_calm quiet link (.inl empty), judgeHalf_of_bad crc]
    have calm := delivering_quiet quiet h (.inl empty)
    have stuck : ((s.delivering p h).setFerr p).Quiet := by
      refine ⟨calm.settled, fun q => ?_⟩
      have before := calm.taken q
      by_cases own : p = q
      · subst own
        simpa [State.canTake, State.setFerr] using before
      · simpa [State.canTake, State.setFerr, own] using before
    rw [endEvent_runHandlers_of_ports stuck (by simp), State.setFerr, State.delivering, updPort_updPort]
    rfl
  · show execFramingError p s = _
    unfold execFramingError
    rw [link]
    rfl
  · have start : s.beginFrame p = s.nextEvent.updPort p fun x => { x with link := .inFrame (s.answerHalf p) } := by
      simp only [State.beginFrame, idle]
    obtain rfl : _ = u := start.symm.trans (Host.Outcome.next.inj begun)
    have link : ((s.nextEvent.updPort p fun x => { x with link := .inFrame (s.answerHalf p) }).port p).link =
        .inFrame (s.answerHalf p) := by rw [port_updPort, if_pos rfl]
    refine ⟨fun half => ?_, ?_⟩
    · rw [exec_frameComplete link, delivering_begun]
      show execFrameComplete p half s = _
      unfold execFrameComplete
      rw [idle]
      rfl
    · show execFramingError p s = execFramingError p _
      unfold execFramingError
      rw [idle, link]
      exact congrArg (fun t : State => Host.Outcome.next (t.statEvent .frameError 0 p).endEvent)
        (updPort_updPort s.nextEvent p (fun x => { x with link := .inFrame (s.answerHalf p) })
          (fun x => { x with ferr := true, link := .idle })).symm
  · refine ⟨fun half => ?_, ?_⟩
    · show execFrameComplete p half s = _
      unfold execFrameComplete
      rw [waits]
      rfl
    · show execFramingError p s = _
      unfold execFramingError
      rw [waits]
      rfl

/-! ### A frame that carries a request -/

/-- A good frame with a request of a kind of its own meets the queue: room and the filters' test first, or the drop. -/
theorem judgeHalf_of_request {s : State} {p : Port} {half : BitVec 112}
    (crc : crc16 (half.extractLsb' 16 96) = half.extractLsb' 0 16) (busy : half.extractLsb' 104 8 ≠ 0)
    (unreset : half.extractLsb' 104 8 ≠ 11) :
    s.judgeHalf p half =
      (if (s.port p).requests.length < (s.port p).depth.frames then
        s.filterFrame p (half.extractLsb' 104 8) (half.extractLsb' 96 8) else s).enqueue p (Request.ofHalf half) := by
  have other : halfKind half ≠ idleKind := busy
  have unclear : halfKind half ≠ portResetKind := unreset
  rw [judgeHalf_of_good crc, if_neg other, if_neg unclear, State.hasRoom]
  simp only [decide_eq_true_eq]
  split <;> rfl

theorem filterFrame_unmarked {s : State} (h : s.lastClear = none) (p : Port) (kind tag : Byte) :
    ({ s.filterFrame p kind tag with lastClear := none } : State) = s.filterFrame p kind tag := by
  have kept : (s.filterFrame p kind tag).lastClear = none := by simp [h]
  rw [← kept]

/-- Settles O6: the frame's end is the arrival of its request (`judgeHalf_of_request`), and the handler that the delivery
lets take is the only one that can (`runHandlers_of_only`). -/
theorem requestFrameActsAsItsCommand : Obligations.RequestFrameActsAsItsCommand := by
  intro s c p r h half quiet link hc carries busy unreset crc u tested
  have judged (t : State) : t.judgeHalf p half =
      (if (t.port p).requests.length < (t.port p).depth.frames then
        t.filterFrame p (half.extractLsb' 104 8) (half.extractLsb' 96 8) else t).enqueue p r := by
    rw [judgeHalf_of_request crc busy unreset, carries]
  have ended : ∀ v : State, u.runHandlers = v →
      exec (.frameComplete p half) s = .next ((v.judgeHalf p half).endEvent.runHandlers) := fun v same =>
    same ▸ exec_frameComplete link half
  have port : u.port p = (s.port p).delivered h := by rw [port_updPort, if_pos rfl]; rfl
  have unmarked := filterFrame_unmarked (s := u) rfl p (half.extractLsb' 104 8) (half.extractLsb' 96 8)
  refine ⟨fun w => exec_of_requestOf hc w, fun empty => ?_, fun stuck room => ?_, fun stuck full => ?_,
    fun idle full carried older w newer chooses => ?_⟩
  · have room : (u.port p).requests.length < (u.port p).depth.frames := by
      rw [port, PortState.delivered, empty]
      cases (s.port p).depth <;> decide
    rw [ended u (runHandlers_of_quiet (delivering_quiet quiet h (.inl empty)).taken), judged, if_pos room,
      exec_of_requestOf hc]
    exact congrArg (fun t : State => Host.Outcome.next (t.arrive p r)) unmarked.symm
  · have calm : u.Quiet := delivering_quiet quiet h (.inr stuck)
    have space : (u.port p).requests.length < (u.port p).depth.frames := by
      rw [port]
      exact room
    have ports : tested.ports = u.ports := by simp [tested]
    have space' : (tested.port p).requests.length < (tested.port p).depth.frames := by
      rw [port_congr ports]
      exact space
    have queued : tested.enqueue p r = tested.updPort p fun x => { x with requests := x.requests ++ [r] } := if_pos space'
    rw [ended u (runHandlers_of_quiet calm.taken), judged, if_pos space]
    show Host.Outcome.next (tested.enqueue p r).endEvent.runHandlers = _
    rw [queued, runHandlers_of_quiet fun q => ?_]
    by_cases own : p = q
    · subst own
      have stuck' : (tested.port p).handler = .busy := by
        rw [port_congr ports, port]
        exact stuck
      simp [State.canTake, stuck']
    · have before := calm.taken q
      rw [← canTake_congr ports] at before
      simpa [State.canTake, own] using before
  · have calm : u.Quiet := delivering_quiet quiet h (.inr stuck)
    have spaceless : ¬ (u.port p).requests.length < (u.port p).depth.frames := by
      rw [port]
      exact Nat.not_lt.2 full
    have dropped : u.enqueue p r = (u.updPort p fun x => { x with drop := true }).statEvent .drop 0 p :=
      if_neg spaceless
    have still : (u.updPort p fun x => { x with drop := true }).Quiet := by
      refine ⟨calm.settled, fun q => ?_⟩
      have before := calm.taken q
      by_cases own : p = q
      · subst own
        simpa [State.canTake] using before
      · simpa [State.canTake, own] using before
    rw [ended u (runHandlers_of_quiet calm.taken), judged, if_neg spaceless, dropped,
      endEvent_runHandlers_of_ports still (by simp)]
  · have waiting : (s.port p).requests ≠ [] := by
      rw [chooses.place]
      simp
    have able : u.canTake p = true := by
      have four : (s.port p).replies.tail.length < 4 := by rw [List.length_tail, full]; decide
      have some : (s.port p).requests.isEmpty = false := by simpa using waiting
      simp [State.canTake, port, PortState.delivered, idle, carried, replyRoom, some, full]
    have only : ∀ k, u.canTake k = true → k = p := fun k can => by
      by_contra other
      have before := quiet.taken k
      have same : u.port k = s.port k := by rw [port_updPort, if_neg (Ne.symm other)]; rfl
      simp only [State.canTake, same] at can before
      simp [can] at before
    have takes : u.takeOne p = u.taking p older w newer :=
      State.Chooses.takeOne ⟨by rw [port]; exact chooses.place, chooses.paired, chooses.urgent⟩
    have delivered : u.runHandlers = (u.taking p older w newer).runHandlers := by
      rw [runHandlers_of_only able only, takes]
    rw [ended _ delivered, judged]
    rfl

end Sys2Proof.Machine

/-! PROOFS. The step, power-on, the laws at reset, and the takes and the battery's requests that are answered at once. -/

namespace Sys2Proof.Machine

/-! ### The step and power-on -/

/-- Settles O1: the two branches of `step`. -/
theorem stepRunsFront : Obligations.StepRunsFront := by
  refine ⟨fun s c rest front => ?_, fun s empty => ?_⟩
  · simp only [step, front]
  · simp only [step, empty]

/-- Settles O2: POWER_ON is the reset state with its links (`powerOn_eq`), whose tables are read entry by entry. -/
theorem powerOnResets : Obligations.PowerOnResets := by
  refine ⟨fun _ _ => rfl, rfl, rfl, fun i => look_replicate .., rfl, rfl, ⟨rfl, rfl, rfl, rfl, rfl⟩,
    fun n => look_replicate .., fun n => look_replicate .., fun n => look_replicate .., fun n => look_replicate ..,
    rfl, rfl, rfl, rfl, ?_, fun p => ?_, fun p => look_replicate .., ?_, rfl, rfl⟩
  · decide
  · have empty : look State.reset.router.sets p = { entries := [], fresh := [] } := look_replicate ..
    exact ⟨empty, by simp only [State.attentionLine, empty, PendingSet.all, List.append_nil, List.isEmpty_nil,
      Bool.not_true]⟩
  · decide

/-! ### Takes that are held -/

/-- A request that its block holds leaves the handler BUSY (R169). -/
theorem exec_of_held {s u : State} {c : Instr} {p : Port} {r : Request} (h : s.Serves p)
    (hc : requestOf c = some (p, r)) (hr : r.body ≠ .engHalt) (hb : serveBody s.nextEvent p r = (u, none))
    (hu : u.router = s.router) : exec c s = .next (u.updPort p fun x => { x with handler := .busy }) := by
  have none_ends : s.nextEvent.takingEnds p r.body = s.nextEvent :=
    takingEnds_of_unlocked (s := s.nextEvent) h.unlocked r.body
  have settled : ∀ q, (look u.router.sets q).fresh = [] := hu ▸ h.listening.quiet.settled
  rw [exec_of_requestOf hc, request_of_listening h.listening hr, State.serve, none_ends, hb]
  exact congrArg Host.Outcome.next (endEvent_of_settled settled)

theorem runInFlight_of_inFlight {s : State} {run : RunInputs} (h : s.engine.run = .inFlight run) :
    s.runInFlight = true := by
  simp only [State.runInFlight, h]

/-- Settles O15: both takes are held by the first branch of their services. -/
theorem takesAreHeldDuringARun : Obligations.TakesAreHeldDuringARun := by
  intro s run tag flies
  have flight : s.nextEvent.runInFlight = true := runInFlight_of_inFlight (s := s.nextEvent) flies
  refine ⟨fun i h => ?_, fun h => ?_⟩
  · refine exec_of_held (r := { tag := tag, body := .ceilTake }) h rfl (by simp) ?_ rfl
    simp only [serveBody, roleOf_stationPort, serveCeilTake, flight, if_true]
    rfl
  · refine exec_of_held (r := { tag := tag, body := .dispTake }) (serves_storage h) rfl (by simp) ?_ rfl
    simp only [serveBody, roleOf_storagePort, serveDispTake, flight, if_true]
    rfl

/-! ### Ceiling takes that grant nothing -/

theorem serveCeilTake_of_landed {s : State} (h : s.runInFlight = false) (i : StationId) (tag : Byte) :
    serveCeilTake s i tag = answered (answerTake s i) := by
  simp only [serveCeilTake, h, Bool.false_eq_true, if_false]
  rfl

/-- A CEIL-TAKE that is answered at once, with no interlock opened. -/
theorem exec_ceilTake_of_answer {s u : State} {i : StationId} {x : Reply} (h : s.Serves (stationPort i))
    (landed : s.runInFlight = false) (tag : Byte) (hx : answerTake s.nextEvent i = (u, x)) (marked : u.lastClear = none)
    (settled : ∀ q, (look u.router.sets q).fresh = []) :
    exec (.ceilTake (stationPort i) tag) s = .next (u.replyOn (stationPort i) 4 tag x.code x.payload) := by
  refine exec_of_settled_answer (r := { tag := tag, body := .ceilTake }) h rfl (by simp) ?_ marked settled
  simp only [serveBody, roleOf_stationPort]
  rw [serveCeilTake_of_landed (s := s.nextEvent) landed, hx]

theorem fixedCeiling_eq {x : Params} {e : Station} {ceiling : Nat}
    (faulted : e.state = .faulted → ceiling = min e.applied (e.rating * x.faultCap / 1000))
    (parked : e.state = .parked → e.park = some ceiling)
    (other : e.state ≠ .faulted → e.state ≠ .parked → ceiling = e.applied) : fixedCeiling x e = ceiling := by
  cases state : e.state with
  | faulted => simp only [fixedCeiling, state]; exact (faulted state).symm
  | parked => simp only [fixedCeiling, state, parked state, Option.getD_some]
  | absent | joining | online | stale =>
    simp only [fixedCeiling, state]
    exact (other (by rw [state]; decide) (by rw [state]; decide)).symm

theorem readyCondition_of_unmasked {s : State} {i : StationId} (h : look s.published.mask i = false) :
    s.readyCondition i = false := by
  simp only [State.readyCondition, h, Bool.and_false, Bool.false_and]

theorem cleared_offer (i : StationId) : look Published.cleared.offers i = 0 := look_replicate ..

/-- Settles O16: each case is one branch of `answerTake`; where a record is in force raise-ready is found again, and
its condition fails. -/
theorem ceilTakeFixed : Obligations.CeilTakeFixed := by
  intro s i tag ceiling h landed p e faulted parked other
  have fixed : fixedCeiling s.params e = ceiling := fixedCeiling_eq faulted parked other
  have settled := h.listening.quiet.settled
  refine ⟨fun absent => ?_, fun present halted => ?_, fun present running apart => ?_⟩
  · exact exec_ceilTake_of_answer h landed tag (if_pos absent) rfl settled
  · have answer : answerTake s.nextEvent i = (s.nextEvent, fixedReply s.nextEvent Published.cleared i) :=
      (if_neg present).trans (if_pos halted)
    have reply : fixedReply s.nextEvent Published.cleared i = { code := .fixed, payload := takePayload e.state ceiling 0 0 } := by
      simp only [fixedReply, State.liveOffer, cleared_offer, Nat.zero_min, ← fixed]
      rfl
    rw [reply] at answer
    exact exec_ceilTake_of_answer h landed tag answer rfl settled
  · have closed : ¬ ((s.nextEvent.station i).state = .online && look s.nextEvent.published.mask i) = true := by
      rw [Bool.and_eq_true, decide_eq_true_eq]
      rintro ⟨online, masked⟩
      exact apart.elim (fun offline => offline online) fun unmasked => Bool.false_ne_true (unmasked.symm.trans masked)
    have unready : s.nextEvent.readyCondition i = false := by
      rcases apart with offline | unmasked
      · exact readyCondition_of_not_online (s := s.nextEvent) offline
      · exact readyCondition_of_unmasked (s := s.nextEvent) unmasked
    have answer : answerTake s.nextEvent i = (s.nextEvent.evalReady i, fixedReply s.nextEvent s.published i) :=
      (if_neg present).trans ((if_neg (by rw [show s.nextEvent.halted = false from running]; decide)).trans (if_neg closed))
    have reply : fixedReply s.nextEvent s.published i =
        { code := .fixed, payload := takePayload e.state ceiling (min (look s.published.offers i) e.rating) s.published.tag } := by
      rw [← fixed]
      rfl
    rw [reply, evalReady_of_condition_false unready] at answer
    exact exec_ceilTake_of_answer h landed tag answer rfl (readyChange_settled settled i _ _)

/-! ### The battery's report and its dispatch take -/

theorem exec_storTel {s u : State} {tag : Byte} {meas : BitVec 32} {soc bdis bchg : BitVec 16} {x : Reply}
    (h : s.Listening storagePort) (hx : serveStorTel s.nextEvent meas soc bdis bchg = (u, x)) (marked : u.lastClear = none)
    (settled : ∀ q, (look u.router.sets q).fresh = []) :
    exec (.storTel storagePort tag meas soc bdis bchg) s = .next (u.replyOn storagePort 6 tag x.code x.payload) := by
  refine exec_of_settled_answer (r := { tag := tag, body := .storTel meas soc bdis bchg }) (serves_storage h) rfl (by simp)
    ?_ marked settled
  simp only [serveBody, roleOf_storagePort, hx]

theorem serveStorTel_of_absent {s : State} (h : s.storage.state = .absent) (meas : BitVec 32) (soc bdis bchg : BitVec 16) :
    serveStorTel s meas soc bdis bchg = (s, refuse .refusedState) := if_pos h

theorem serveStorTel_of_early {s : State} (h : s.storage.state ≠ .absent) (early : isEarly s.params s.storage.age = true)
    (meas : BitVec 32) (soc bdis bchg : BitVec 16) : serveStorTel s meas soc bdis bchg = storTelReply s .okIgnored :=
  (if_neg h).trans (if_pos early)

/-- An accepted report: the record ONLINE with what was sent, clamped, and a stay in STALE over (R95, R96). -/
theorem serveStorTel_of_accepted {s : State} (h : s.storage.state ≠ .absent) (early : isEarly s.params s.storage.age = false)
    (meas : BitVec 32) (soc bdis bchg : BitVec 16) :
    serveStorTel s meas soc bdis bchg =
      let m : Int := max (-65535) (min 65535 meas.toInt)
      let c := min soc.toNat 1000
      (({ s with
          storage := { s.storage with
                       state := .online, meas := m, soc := c, bdis := bdis.toNat, bchg := bchg.toNat, age := 0 }
          router := if s.storage.state = .stale then s.router.conditionEnded .storeStale 0 else s.router } : State),
        { code := if m = meas.toInt ∧ c = soc.toNat then .ok else .okClamped
          payload := f8 2 ++ f8 0 ++ s32 m ++ f16 c }) := by
  refine (if_neg h).trans ((if_neg (by rw [early]; decide)).trans ?_)
  rw [clamp_eq_max_min (by decide)]
  simp only [storTelReply, State.leaveStorageStale, Bool.and_eq_true, decide_eq_true_eq]
  split <;> rfl

/-- Settles O19: the three branches of the service. -/
theorem storTelStoresReport : Obligations.StorTelStoresReport := by
  intro s tag meas soc bdis bchg h x early m c
  have same : isEarly s.params x.age = early := (Bool.decide_and _ _).symm
  have settled := h.quiet.settled
  refine ⟨fun absent => ?_, fun present sooner => ?_, fun present due => ?_⟩
  · exact exec_storTel h (serveStorTel_of_absent (s := s.nextEvent) absent ..) rfl settled
  · exact exec_storTel h (serveStorTel_of_early (s := s.nextEvent) present (same.trans sooner) ..) rfl settled
  · refine exec_storTel h (serveStorTel_of_accepted (s := s.nextEvent) present (same.trans due) ..) rfl fun q => ?_
    dsimp only
    split
    · exact conditionEnded_settled settled _ _ q
    · exact settled q

theorem exec_dispTake {s : State} (h : s.Listening storagePort) (landed : s.runInFlight = false) (tag : Byte) :
    exec (.dispTake storagePort tag) s =
      .next (s.replyOn storagePort 7 tag (answerDispatch s).code (answerDispatch s).payload) := by
  refine exec_of_settled_answer (u := s.nextEvent) (r := { tag := tag, body := .dispTake }) (serves_storage h) rfl (by simp) ?_
    rfl h.quiet.settled
  simp only [serveBody, roleOf_storagePort, serveDispTake, show s.nextEvent.runInFlight = false from landed,
    Bool.false_eq_true, if_false]
  rfl

/-- The payload of a dispatch answer, with its plant-state dependent field read case by case. -/
theorem dispatchPayload_eq (r : Published) (live : StorageState) (b : Int) :
    dispatchPayload r live b = intervalTag r.number ++
      f8 (r.plant.code + (if r.collapsed then 8 else 0) + 16 * live.code + (if b < 0 then 128 else 0)) ++
      f16 b.natAbs ++ f24 (if r.plant = .short then r.shortfall else if r.plant = .excess then r.excess else 0) := by
  have amount : shortfallOrExcess r = if r.plant = .short then r.shortfall else if r.plant = .excess then r.excess else 0 := by
    cases plant : r.plant <;> simp only [shortfallOrExcess, plant, reduceCtorEq, if_true, if_false]
  simp only [dispatchPayload, flagAt_eq, amount, decide_eq_true_eq]
  rfl

/-- Settles O20: while HALTED the record in force is the cleared one, so that one record answers in every mode. -/
theorem dispTakeAnswered : Obligations.DispTakeAnswered := by
  intro s tag h landed cleared r answer
  have record : (if s.halted then Published.cleared else s.published) = r := by
    split
    · rename_i halted
      exact (cleared halted).symm
    · rfl
  have read (present : s.storage.state ≠ .absent) : answerDispatch s = if r.storageOnline then
      { code := .ok, payload := answer r.b } else { code := .fixed, payload := answer 0 } := by
    refine (if_neg present).trans ?_
    simp only [record, dispatchPayload_eq]
    rfl
  refine ⟨fun absent => ?_, fun present online => ?_, fun present offline => ?_⟩
  · have refused : answerDispatch s = refuse .refusedState := if_pos absent
    rw [exec_dispTake h landed, refused]
    rfl
  · rw [exec_dispTake h landed, read present, if_pos online]
  · rw [exec_dispTake h landed, read present, if_neg (by rw [offline]; decide)]

end Sys2Proof.Machine

/-! PROOFS. The reads and acknowledgements of the pending sets, the capture record, and the actions of STAT-CTRL. -/

namespace Sys2Proof.Machine

/-! ### ATTN-READ and ATTN-ACK -/

theorem all_of_settled {q : PendingSet} (h : q.fresh = []) : q.all = q.entries := by
  rw [PendingSet.all, h, List.append_nil]

theorem entryBytes_some (e : PendingEntry) :
    entryBytes (some e) = f8 (128 + (if e.release = .clear then 64 else 0) + (if e.locked then 32 else 0) + e.kind.code.val) ++
      f8 e.inst.val ++ f8 e.count := by
  simp only [entryBytes, flagAt_eq, beq_iff_eq]
  rfl

theorem isStation_iff (k : CauseKind) : (!k.isStation) = decide (3 ≤ k.code.val) := by cases k <;> rfl

/-- Which entries an ATTN-ACK removes: those with release ACK that its kind and its entry number name, the number
meaning nothing for the kinds from 3 on (R160). -/
theorem acknowledges_iff (e : PendingEntry) (kind inst : Byte) :
    (e.matchesAck kind inst && e.release == .ack) =
      ((kind == 255 || kind.toNat == e.kind.code.val) &&
        (inst == 255 || inst.toNat == e.inst.val || 3 ≤ e.kind.code.val) && e.release == .ack) := by
  rw [PendingEntry.matchesAck, isStation_iff, Bool.or_assoc, Bool.or_comm (decide _)]
  rfl

theorem serveAttnRead_of_settled {s : State} {p : Port} (h : (look s.router.sets p).fresh = []) :
    serveAttnRead s p =
      (s, { code := .ok
            payload := f8 (look s.router.sets p).entries.length ++ entryBytes (look s.router.sets p).entries[0]? ++
              entryBytes (look s.router.sets p).entries[1]? ++ 0#8 }) := by
  simp only [serveAttnRead, all_of_settled h]
  rfl

theorem serveAttnAck_of_range {s : State} {kind inst : Byte}
    (h : (12 ≤ kind.toNat ∧ kind ≠ 255) ∨ (10 ≤ inst.toNat ∧ inst ≠ 255)) (p : Port) :
    serveAttnAck s p kind inst = (s, refuse .refusedRange) := by
  refine if_pos ?_
  simp only [Bool.or_eq_true, Bool.and_eq_true, bne_iff_ne, decide_eq_true_eq]
  exact h.imp And.symm And.symm

theorem serveAttnAck_of_named {s : State} {p : Port} {kind inst : Byte} (settled : (look s.router.sets p).fresh = [])
    (hk : kind.toNat ≤ 11 ∨ kind = 255) (hi : inst.toNat ≤ 9 ∨ inst = 255) :
    serveAttnAck s p kind inst =
      let left := acknowledged kind inst (look s.router.sets p).entries
      (s.setRouter { s.router with sets := put s.router.sets p { entries := left, fresh := [] } },
        { code := .ok
          payload := f8 ((look s.router.sets p).entries.length - left.length) ++ f8 left.length ++ 0#48 }) := by
  have named : ¬ (kind != 255#8 && decide (12 ≤ kind.toNat) || inst != 255#8 && decide (10 ≤ inst.toNat)) = true := by
    simp only [Bool.or_eq_true, Bool.and_eq_true, bne_iff_ne, decide_eq_true_eq, not_or, not_and]
    exact ⟨fun k => by have := hk.resolve_right k; omega, fun k => by have := hi.resolve_right k; omega⟩
  have nothing : acknowledged kind inst [] = [] := rfl
  simp only [serveAttnAck, named, settled, nothing, PendingSet.all, List.append_nil]
  rfl

/-- Settles O22: the set is settled, so that its `entries` are the whole set. -/
theorem attnReadAndAck : Obligations.AttnReadAndAck := by
  constructor
  · intro s p tag h q shown
    have same : ∀ e, entryBytes e = shown e := fun e => by
      cases e with
      | none => rfl
      | some e => exact entryBytes_some e
    have served := serveAttnRead_of_settled (s := s.nextEvent) (h.listening.quiet.settled p)
    rw [same, same] at served
    exact exec_of_answer (r := { tag := tag, body := .attnRead }) h rfl (by simp) (congrArg answered served) rfl rfl
  · intro s p tag kind inst h q gone left
    refine ⟨fun out => ?_, fun hk hi => ?_⟩
    · exact exec_of_answer (r := { tag := tag, body := .attnAck kind inst }) h rfl (by simp)
        (congrArg answered (serveAttnAck_of_range (s := s.nextEvent) out p)) rfl rfl
    · have kept : acknowledged kind inst q = left := List.filter_congr fun e _ => by rw [acknowledges_iff]
      have served := serveAttnAck_of_named (s := s.nextEvent) (h.listening.quiet.settled p) hk hi
      rw [show acknowledged kind inst (look s.nextEvent.router.sets p).entries = left from kept] at served
      refine exec_of_settled_answer (r := { tag := tag, body := .attnAck kind inst }) h rfl (by simp)
        (congrArg answered served) rfl fun r => ?_
      dsimp only [setRouter_router]
      rw [look_put]
      split
      · rfl
      · exact h.listening.quiet.settled r

/-! ### CAPT-READ and CAPT-RELEASE -/

theorem exec_captRead {s : State} {tag index : Byte} {x : Reply} (h : s.Listening supervisorPort)
    (hx : serveCaptRead s.nextEvent index = (s.nextEvent, x)) :
    exec (.captRead supervisorPort tag index) s = .next (s.replyOn supervisorPort 29 tag x.code x.payload) :=
  exec_of_answer (u := s.nextEvent) (r := { tag := tag, body := .captRead index }) (serves_supervisor h) rfl (by simp)
    ((supervisorOnly_supervisorPort _ _).trans (congrArg answered hx)) rfl rfl

theorem serveCaptRead_of_range {s : State} {index : Byte} (h : 18 < index.toNat) :
    serveCaptRead s index = (s, refuse .refusedRange) :=
  (if_neg (by omega)).trans (if_pos h)

theorem serveCaptRead_of_empty {s : State} {index : Byte} (low : 1 ≤ index.toNat) (high : index.toNat ≤ 18)
    (h : s.ramp.capture = .empty) : serveCaptRead s index = (s, refuse .refusedState) := by
  refine (if_neg (by omega)).trans ((if_neg (by omega)).trans ?_)
  rw [h]
  rfl

theorem serveCaptRead_of_header {s : State} {index : Byte} {d : CaptureData} (low : 1 ≤ index.toNat)
    (high : index.toNat ≤ 8) (h : s.ramp.capture.data? = some d) :
    serveCaptRead s index = (s, { code := .ok, payload := d.headerPage index.toNat }) := by
  refine (if_neg (by omega)).trans ((if_neg (by omega)).trans ?_)
  rw [h]
  exact if_pos high

theorem serveCaptRead_of_list {s : State} {index : Byte} {d : CaptureData} (low : 9 ≤ index.toNat)
    (high : index.toNat ≤ 18) (h : s.ramp.capture.data? = some d) :
    serveCaptRead s index = (s, (d.stations[index.toNat - 9]?).elim (refuse .refusedRange) fun e =>
      { code := .ok, payload := e.page }) := by
  refine (if_neg (by omega)).trans ((if_neg (by omega)).trans ?_)
  rw [h]
  refine (if_neg (by omega)).trans ?_
  cases d.stations[index.toNat - 9]? <;> rfl

theorem monitorPage_eq (r : Ramp) :
    r.monitorPage =
      f8 ((if r.softUp then 1 else 0) + (if r.softDown then 2 else 0) + (if r.hardUp then 4 else 0) +
          (if r.hardDown then 8 else 0)) ++ f8 r.capture.code ++
        f8 ((if (look r.scopes 0).frozen then 1 else 0) + (if (look r.scopes 1).frozen then 2 else 0) +
          (if (look r.scopes 2).frozen then 4 else 0) + (if (look r.scopes 3).frozen then 8 else 0) +
          (if (look r.scopes 4).frozen then 16 else 0)) ++
        f8 (look r.scopes 0).cleanRuns ++ f8 (look r.scopes 1).cleanRuns ++ f8 (look r.scopes 2).cleanRuns ++
        f8 (look r.scopes 3).cleanRuns ++ f8 (look r.scopes 4).cleanRuns := by
  simp only [Ramp.monitorPage, flagAt_eq, frozenByte_eq r (frozen := fun n => (look r.scopes n).frozen) fun _ => rfl]
  rfl

theorem headerPage_eight (d : CaptureData) :
    d.headerPage 8 =
      f8 ((if d.source = .metered then 1 else 0) + (if d.clamped then 2 else 0) + (if d.checked then 4 else 0) +
          (if d.collapsed then 8 else 0)) ++ f8 d.plant.code ++ f8 d.stations.length ++
        (match d.responsible with
        | some (i, x) => f8 (128 + i.val) ++ f16 x
        | none => (0 : BitVec 24)) ++
        (match d.frozenScope with
        | some n => f8 (128 + n.val)
        | none => (0 : BitVec 8)) ++ 0#8 := by
  simp only [CaptureData.headerPage, flagAt_eq, beq_iff_eq, if_true]
  rfl

theorem data?_of_holds {c : Capture} {d : CaptureData} (h : c = .loaded d ∨ c = .locked d) : c.data? = some d := by
  rcases h with rfl | rfl <;> rfl

theorem release_of_holds {c : Capture} {d : CaptureData} (h : c = .loaded d ∨ c = .locked d) : c.release = .loaded d := by
  rcases h with rfl | rfl <;> rfl

theorem exec_captRelease {s : State} {tag : Byte} {c : Capture} (h : s.Listening supervisorPort)
    (hc : s.ramp.capture.release = c) :
    exec (.captRelease supervisorPort tag) s = .next
      (State.replyOn { s with ramp := { s.ramp with capture := c } } supervisorPort 30 tag .ok (f8 c.code ++ 0#56)) := by
  subst hc
  exact exec_of_answer (r := { tag := tag, body := .captRelease }) (serves_supervisor h) rfl (by simp)
    (supervisorOnly_supervisorPort _ _) rfl rfl

/-- Settles O25: the tests of `serveCaptRead` in their order, then the page that the index names. -/
theorem captureReadAndRelease : Obligations.CaptureReadAndRelease := by
  intro s tag h reads scope frozen
  refine ⟨?_, fun index out => ?_, fun index low high empty => ?_, fun d holds => ?_, fun empty => ?_, fun d holds => ?_⟩
  · exact exec_captRead h (x := { code := .ok, payload := _ })
      (congrArg (fun y => (s.nextEvent, Reply.mk .ok y)) (monitorPage_eq s.ramp))
  · exact exec_captRead h (serveCaptRead_of_range out)
  · exact exec_captRead h (serveCaptRead_of_empty low high empty)
  · have header {index : Byte} (low : 1 ≤ index.toNat) (high : index.toNat ≤ 8) :
        reads index .ok (d.headerPage index.toNat) :=
      exec_captRead h (serveCaptRead_of_header (s := s.nextEvent) low high (data?_of_holds holds))
    have listed {index : Byte} (low : 9 ≤ index.toNat) (high : index.toNat ≤ 18) :=
      exec_captRead (tag := tag) h (serveCaptRead_of_list (s := s.nextEvent) low high (data?_of_holds holds))
    refine ⟨header (index := 1) (by decide) (by decide), header (index := 2) (by decide) (by decide),
      header (index := 3) (by decide) (by decide), header (index := 4) (by decide) (by decide),
      header (index := 5) (by decide) (by decide), header (index := 6) (by decide) (by decide),
      header (index := 7) (by decide) (by decide), ?_, fun index e low high found => ?_, fun index low high short => ?_⟩
    · have page := header (index := 8) (by decide) (by decide)
      rw [show (8 : Byte).toNat = 8 from rfl, headerPage_eight] at page
      exact page
    · have read := listed low high
      rw [found] at read
      exact read
    · have read := listed low high
      rw [List.getElem?_eq_none short] at read
      exact read
  · have same : { s.ramp with capture := .empty } = s.ramp := by rw [← empty]
    have released := exec_captRelease (tag := tag) h (c := .empty) (by rw [empty]; rfl)
    rw [same] at released
    exact released
  · exact exec_captRelease h (release_of_holds holds)

end Sys2Proof.Machine

/-! PROOFS. The request half read back, and the actions of STAT-CTRL. -/

namespace Sys2Proof.Machine

/-! ### The fields of a concatenation -/

/-- The higher of two fields. -/
theorem extract_high {start v w : Nat} (y : BitVec v) (z : BitVec w) (h : start = w := by rfl) :
    (y ++ z).extractLsb' start v = y := by
  rw [h, BitVec.extractLsb'_append_eq_left]

/-- The field that stands directly above the lowest, with more above it. -/
theorem extract_middle {start u v w : Nat} (x : BitVec u) (y : BitVec v) (z : BitVec w) (h : start = w := by rfl) :
    (x ++ y ++ z).extractLsb' start v = y := by
  rw [h, BitVec.extractLsb'_append_eq_of_le le_rfl, Nat.sub_self, BitVec.extractLsb'_append_eq_right]

/-- The topmost of three fields. -/
theorem extract_top {start u v w : Nat} (x : BitVec u) (y : BitVec v) (z : BitVec w) (h : start = v + w := by rfl) :
    (x ++ y ++ z).extractLsb' start u = x := by
  rw [h, BitVec.extractLsb'_append_eq_of_le (Nat.le_add_left w v), Nat.add_sub_cancel, BitVec.extractLsb'_append_eq_left]

/-- The topmost of four fields. -/
theorem extract_top_of_four {start t u v w : Nat} (a : BitVec t) (x : BitVec u) (y : BitVec v) (z : BitVec w)
    (h : start = u + v + w := by rfl) : (a ++ x ++ y ++ z).extractLsb' start t = a := by
  rw [h, BitVec.extractLsb'_append_eq_of_le (Nat.le_add_left w _), Nat.add_sub_cancel, extract_top]

/-- The second of four fields. -/
theorem extract_second_of_four {start t u v w : Nat} (a : BitVec t) (x : BitVec u) (y : BitVec v) (z : BitVec w)
    (h : start = v + w := by rfl) : (a ++ x ++ y ++ z).extractLsb' start u = x := by
  rw [h, BitVec.extractLsb'_append_eq_of_le (Nat.le_add_left w v), Nat.add_sub_cancel, extract_middle]

/-- A field above the lowest part of a concatenation is a field of the rest. -/
theorem extract_above {start k n v w : Nat} (y : BitVec v) (z : BitVec w) (h : start = k + w := by rfl) :
    (y ++ z).extractLsb' start n = y.extractLsb' k n := by
  rw [h, BitVec.extractLsb'_append_eq_of_le (Nat.le_add_left w k), Nat.add_sub_cancel]

/-! ### The request half -/

theorem halfMessage_half (r : Request) : halfMessage r.half = r.message := extract_high ..

theorem halfCrc_half (r : Request) : halfCrc r.half = crc16 r.message := BitVec.extractLsb'_append_eq_right

theorem halfKind_half (r : Request) : halfKind r.half = r.body.kind := extract_top_of_four ..

theorem halfTag_half (r : Request) : halfTag r.half = r.tag := extract_second_of_four ..

theorem halfPayload_half (r : Request) : halfPayload r.half = r.body.payload := extract_middle ..

/-- A code that names no kind is kept as it came. -/
theorem ofPayload_of_undefined {kind : Byte} (h : kindDefined kind = false) (x : BitVec 80) :
    Body.ofPayload kind x = .undefined kind := by
  simp only [kindDefined, Bool.or_eq_false_iff, Bool.and_eq_false_iff, decide_eq_false_iff_not] at h
  unfold Body.ofPayload
  split
  case h_26 => rfl
  all_goals omega

/-- A code that names no action is kept as it came. -/
theorem ofPayload_undefinedAction {action : Byte} (h : 8 ≤ action.toNat) :
    StatAction.ofPayload (StatAction.undefined action).payload = .undefined action := by
  have read : payloadByte (StatAction.undefined action).payload 2 = action := extract_high ..
  unfold StatAction.ofPayload
  simp only [read]
  split
  case h_9 => rfl
  all_goals omega

/-- An action is read back from its payload bytes: byte 2 is its code, and its arguments stand where they were put. -/
theorem ofPayload_action {a : StatAction} (h : ∀ n, a = .undefined n → 8 ≤ n.toNat) :
    StatAction.ofPayload a.payload = a := by
  cases a with
  | undefined n => exact ofPayload_undefinedAction (h n rfl)
  | freeze | unfreeze | clearAll => rfl
  | clearOvf counters =>
    have code : payloadByte (3#8 ++ 0#8 ++ counters ++ (0 : BitVec 56)) 2 = 3#8 := extract_top_of_four ..
    simp only [StatAction.ofPayload, StatAction.payload, code]
    exact congrArg StatAction.clearOvf (extract_middle ..)
  | preset counter value =>
    have code : payloadByte (4#8 ++ counter ++ value ++ (0 : BitVec 24)) 2 = 4#8 := extract_top_of_four ..
    simp only [StatAction.ofPayload, StatAction.payload, code]
    exact congrArg₂ StatAction.preset (extract_second_of_four ..) (extract_middle ..)
  | configure counter record =>
    have code : payloadByte (5#8 ++ counter ++ record) 2 = 5#8 := extract_top ..
    simp only [StatAction.ofPayload, StatAction.payload, code]
    exact congrArg₂ StatAction.configure (extract_middle ..) BitVec.extractLsb'_append_eq_right
  | filter which record =>
    have code : payloadByte (6#8 ++ which ++ record ++ (0 : BitVec 24)) 2 = 6#8 := extract_top_of_four ..
    simp only [StatAction.ofPayload, StatAction.payload, code]
    exact congrArg₂ StatAction.filter (extract_second_of_four ..) (extract_middle ..)
  | freezeOnHard value =>
    have code : payloadByte (7#8 ++ 0#8 ++ value ++ (0 : BitVec 56)) 2 = 7#8 := extract_top_of_four ..
    simp only [StatAction.ofPayload, StatAction.payload, code]
    exact congrArg StatAction.freezeOnHard (extract_middle ..)

/-- A request is read back from its kind and its payload bytes. -/
theorem ofPayload_payload {b : Body} (h : b.wellFormed = true) : Body.ofPayload b.kind b.payload = b := by
  cases b with
  | undefined kind => exact ofPayload_of_undefined (Bool.not_eq_true' _ |>.mp h) _
  | join | leave | ceilTake | dispTake | attnRead | engStart | engHalt | captRelease => rfl
  | statCtrl action =>
    refine congrArg Body.statCtrl (ofPayload_action fun n undefined => ?_)
    rw [undefined] at h
    exact of_decide_eq_true h
  | telemetry meas avail => exact congrArg₂ Body.telemetry (extract_top ..) (extract_middle ..)
  | ceilApply echo => exact congrArg Body.ceilApply (extract_high ..)
  | storTel meas soc bdis bchg =>
    exact congr (congr (congrArg₂ Body.storTel (extract_top_of_four ..) (extract_second_of_four ..)) (extract_middle ..))
      BitVec.extractLsb'_append_eq_right
  | entryRead number page => exact congrArg₂ Body.entryRead (extract_top ..) (extract_middle ..)
  | attnAck kind inst => exact congrArg₂ Body.attnAck (extract_top ..) (extract_middle ..)
  | paramSet id index value =>
    exact congr (congrArg₂ Body.paramSet (extract_top_of_four ..) (extract_second_of_four ..)) (extract_middle ..)
  | paramGet id index => exact congrArg₂ Body.paramGet (extract_top ..) (extract_middle ..)
  | meter value tag => exact congrArg₂ Body.meter (extract_top ..) (extract_middle ..)
  | park station ceiling => exact congrArg₂ Body.park (extract_top ..) (extract_middle ..)
  | unpark station => exact congrArg Body.unpark (extract_high ..)
  | faultClear station => exact congrArg Body.faultClear (extract_high ..)
  | freezeRelease scope => exact congrArg Body.freezeRelease (extract_high ..)
  | plantRead page => exact congrArg Body.plantRead (extract_high ..)
  | histRead age => exact congrArg Body.histRead (extract_high ..)
  | statRead page => exact congrArg Body.statRead (extract_high ..)
  | captRead index => exact congrArg Body.captRead (extract_high ..)

/-- No request is an idle frame or a PORT-RESET. -/
theorem kind_ne_of_wellFormed {b : Body} (h : b.wellFormed = true) : b.kind ≠ 0 ∧ b.kind ≠ 11 := by
  cases b with
  | undefined kind =>
    have apart : kindDefined kind = false := (Bool.not_eq_true' _).mp h
    exact ⟨fun e => by rw [show kind = 0 from e] at apart; revert apart; decide,
      fun e => by rw [show kind = 11 from e] at apart; revert apart; decide⟩
  | _ => exact ⟨by simp only [Body.kind]; decide, by simp only [Body.kind]; decide⟩

/-- Settles O60: each field is read from the place it was put (`extract_middle` and its companions). -/
theorem requestHalvesRoundTrip : Obligations.RequestHalvesRoundTrip := by
  intro r h
  refine ⟨?_, ?_, ?_⟩
  · rw [Request.ofHalf, halfKind_half, halfTag_half, halfPayload_half, ofPayload_payload h]
  · rw [halfMessage_half, halfCrc_half]
  · rw [halfKind_half]
    exact kind_ne_of_wellFormed h

/-! ### STAT-CTRL: the frozen state -/

theorem statReply_eq (s : State) :
    statReply s = (s, { code := .ok, payload := f8 (if s.stats.frozen then 1 else 0) ++ 0#56 }) := rfl

/-- A STAT-CTRL action whose service leaves the pending sets settled. -/
theorem exec_statCtrl {s u : State} {c : Instr} {tag : Byte} {a : StatAction} {x : Reply} (h : s.Listening supervisorPort)
    (hc : requestOf c = some (supervisorPort, { tag := tag, body := .statCtrl a }))
    (hx : serveStatCtrl s.nextEvent a = (u, x)) (marked : u.lastClear = none)
    (settled : ∀ q, (look u.router.sets q).fresh = []) :
    exec c s = .next (u.replyOn supervisorPort 28 tag x.code x.payload) :=
  exec_of_supervisor h hc (by simp) ((supervisorOnly_supervisorPort _ _).trans (congrArg answered hx)) marked settled

/-- FREEZE on a counting unit fires STATS-FREEZE, whose entries are in place when the event ends (R145, R157). -/
theorem exec_freeze_of_counting {s : State} {tag : Byte} (h : s.Listening supervisorPort) (counting : s.stats.frozen = false) :
    exec (.freeze supervisorPort tag) s = .next
      (State.replyOn
        { s with
          stats := { s.stats with frozen := true, reason := { manual := true, overflow := false, hard := false } }
          router := (s.router.fire .statsFreeze 0 false).settle }
        supervisorPort 28 tag .ok (f8 1 ++ 0#56)) := by
  have froze : s.nextEvent.statFreeze { manual := true, overflow := false, hard := false } =
      State.firePlant { s.nextEvent with
        stats := { s.stats with frozen := true, reason := { manual := true, overflow := false, hard := false } } }
        .statsFreeze :=
    if_neg (by rw [show s.nextEvent.stats.frozen = false from counting]; decide)
  have served : serveBody s.nextEvent supervisorPort { tag := tag, body := .statCtrl .freeze } = answered (_, _) :=
    (supervisorOnly_supervisorPort _ _).trans (congrArg (fun t => answered (statReply t)) froze)
  rw [exec_of_requestOf rfl, request_of_answer (serves_supervisor h) (by simp) served rfl]
  rfl

theorem statUnfreeze_of_frozen {s : State} (h : s.stats.frozen = true) :
    s.statUnfreeze = { s with
      stats := { s.stats with frozen := false, reason := { manual := false, overflow := false, hard := false } }
      router := s.router.conditionEnded .statsFreeze 0 } := if_pos h

theorem statUnfreeze_of_counting {s : State} (h : s.stats.frozen = false) : s.statUnfreeze = s :=
  if_neg (by rw [h]; decide)

theorem statFreeze_of_frozen {s : State} (h : s.stats.frozen = true) (why : FreezeReason) : s.statFreeze why = s := if_pos h

/-- CLEAR-ALL clears the counts and then leaves the frozen state, if the unit is in it (R151). -/
theorem statClearAll_eq (s : State) :
    s.statClearAll = { s with
      stats := { s.stats with
        counters := tabulate fun n => { look s.stats.counters n with value := 0, overflow := false }
        residency := Vector.replicate 7 0, frozen := false
        reason := if s.stats.frozen then { manual := false, overflow := false, hard := false } else s.stats.reason }
      router := if s.stats.frozen then s.router.conditionEnded .statsFreeze 0 else s.router } := by
  cases frozen : s.stats.frozen with
  | true => exact statUnfreeze_of_frozen frozen
  | false =>
    refine Eq.trans (statUnfreeze_of_counting frozen) ?_
    simp only [State.setStats, frozen]
    rfl

/-- Settles O39: `statFreeze` and `statUnfreeze` act on a unit that is not yet in the state they lead to. -/
theorem statFreezeUnfreezeClear : Obligations.StatFreezeUnfreezeClear := by
  intro s tag h st yields ended noReason
  have settled := h.quiet.settled
  have released : ∀ q, (look ended.sets q).fresh = [] := conditionEnded_settled settled _ _
  refine ⟨fun counting => exec_freeze_of_counting h counting, fun frozen => ?_, fun frozen => ?_, fun counting => ?_, ?_⟩
  · have served : serveStatCtrl s.nextEvent .freeze = (s.nextEvent, { code := .ok, payload := f8 1 ++ 0#56 }) := by
      rw [serveStatCtrl, statFreeze_of_frozen (s := s.nextEvent) frozen, statReply_eq, State.nextEvent, setLastClear_stats,
        if_pos frozen]
    exact exec_statCtrl h (c := .freeze supervisorPort tag) rfl served rfl settled
  · have served := congrArg statReply (statUnfreeze_of_frozen (s := s.nextEvent) frozen)
    exact exec_statCtrl h (c := .unfreeze supervisorPort tag) rfl served rfl released
  · have served : serveStatCtrl s.nextEvent .unfreeze = (s.nextEvent, { code := .ok, payload := f8 0 ++ 0#56 }) := by
      rw [serveStatCtrl, statUnfreeze_of_counting (s := s.nextEvent) counting, statReply_eq, State.nextEvent,
        setLastClear_stats, if_neg (by rw [counting]; decide)]
    exact exec_statCtrl h (c := .unfreeze supervisorPort tag) rfl served rfl settled
  · have served := congrArg statReply (statClearAll_eq s.nextEvent)
    refine exec_statCtrl h (c := .clearAll supervisorPort tag) rfl served rfl fun q => ?_
    dsimp only
    split
    · exact released q
    · exact settled q

/-! ### STAT-CTRL: the writes -/

theorem ofCode_code (x : StatSource) : StatSource.ofCode (f8 x.code).toNat = some x := by cases x <;> rfl

theorem modeOfCode_code (m : CountMode) : CountMode.ofCode m.code = some m := by cases m <;> rfl

theorem sourceOfCode_of_range {n : Nat} (h : 20 < n) : StatSource.ofCode n = none := by
  unfold StatSource.ofCode
  split
  case h_22 => rfl
  all_goals omega

/-- The mode code is the low two bits of byte 7 of the record. -/
theorem modeBits (x : BitVec 64) : (x.extractLsb' 32 8).extractLsb' 0 2 = x.extractLsb' 32 2 := by
  ext i hi
  simp only [BitVec.getElem_extractLsb', BitVec.getLsbD_extractLsb']
  rw [decide_eq_true (by omega), Bool.true_and, Nat.zero_add]

theorem flagBit (x : BitVec 64) {n : Nat} (h : n < 8) : (x.extractLsb' 32 8).getLsbD n = x.getLsbD (32 + n) := by
  rw [BitVec.getLsbD_extractLsb', decide_eq_true h, Bool.true_and]

/-- The bytes of CONFIGURE name the control record whose fields they spell (R166). -/
theorem controlOfBytes_of_fields {x : BitVec 64} {c : Control} (source : x.extractLsb' 56 8 = f8 c.source.code)
    (mask : c.mask = (x.extractLsb' 40 16).truncate 12) (mode : (x.extractLsb' 32 2).toNat = c.mode.code)
    (invert : c.invert = x.getLsbD 36) (freezeOnOverflow : c.freezeOnOverflow = x.getLsbD 37)
    (enable : c.enable = x.getLsbD 38) (threshold : c.threshold = x.extractLsb' 0 32) : Control.ofBytes x = some c := by
  simp only [Control.ofBytes, source, ofCode_code, modeBits, mode, modeOfCode_code, flagBit x (show 4 < 8 by decide),
    flagBit x (show 5 < 8 by decide), flagBit x (show 6 < 8 by decide), ← mask, ← invert, ← freezeOnOverflow, ← enable,
    ← threshold]

theorem controlOfBytes_of_range {x : BitVec 64}
    (h : 20 < (x.extractLsb' 56 8).toNat ∨ x.extractLsb' 32 2 = 3) : Control.ofBytes x = none := by
  rcases h with source | mode
  · simp only [Control.ofBytes, sourceOfCode_of_range source]
  · have unnamed : CountMode.ofCode ((x.extractLsb' 32 8).extractLsb' 0 2).toNat = none := by
      rw [modeBits, mode]
      rfl
    simp only [Control.ofBytes, unnamed]
    cases StatSource.ofCode (x.extractLsb' 56 8).toNat <;> rfl

/-- FILTER's bytes, read field by field (R166). -/
theorem filterOfBytes_bytes (f : Filter) : Filter.ofBytes f.bytes = f := by
  have tagMask : f.bytes.extractLsb' 0 8 = f.tagMask := BitVec.extractLsb'_append_eq_right
  have tagMatch : f.bytes.extractLsb' 8 8 = f.tagMatch := extract_middle ..
  have kindMask : f.bytes.extractLsb' 16 8 = f.kindMask := extract_second_of_four ..
  have kindMatch : f.bytes.extractLsb' 24 8 = f.kindMatch :=
    (extract_above (k := 16) ..).trans (extract_second_of_four ..)
  have portMask : f.bytes.extractLsb' 32 4 = f.portMask :=
    (extract_above (k := 24) ..).trans ((extract_above (k := 16) ..).trans (extract_second_of_four ..))
  have portMatch : f.bytes.extractLsb' 36 4 = f.portMatch :=
    (extract_above (k := 28) ..).trans ((extract_above (k := 20) ..).trans (extract_top_of_four ..))
  rw [Filter.ofBytes, tagMask, tagMatch, kindMask, kindMatch, portMask, portMatch]

/-- Settles O40: each action writes its field of the statistics, and an operand out of range writes nothing. -/
theorem statControlWrites : Obligations.StatControlWrites := by
  intro s tag h st frozen refused
  have settled := h.quiet.settled
  have refuses {c : Instr} {a : StatAction} (hc : requestOf c = some (supervisorPort, { tag := tag, body := .statCtrl a }))
      (hx : serveStatCtrl s.nextEvent a = (s.nextEvent, refuse .refusedRange)) : refused c :=
    exec_statCtrl h hc hx rfl settled
  refine ⟨fun counters => ?_, fun counter value n hn => ?_,
    fun counter c record n hn source mask mode invert freezes enable threshold => ?_, fun which f n hn => ?_,
    fun value => ⟨freezeOnHardSetting value, fun one => one ▸ rfl, fun zero => zero ▸ rfl, ?_⟩, fun counter value out => ?_,
    fun counter record out => ?_, fun which record out => ?_, fun action out => ?_⟩
  · exact exec_statCtrl h (c := .clearOvf supervisorPort tag counters) rfl rfl rfl settled
  · have served : serveStatCtrl s.nextEvent (.preset counter value) =
        (s.nextEvent.setStats (st.updCounter n fun c => { c with value := value }),
          { code := .ok, payload := frozen ++ value ++ 0#16 }) := by
      simp only [serveStatCtrl, index?_of_eq hn]
      rfl
    exact exec_statCtrl h (c := .preset supervisorPort tag counter value) rfl served rfl settled
  · have named := controlOfBytes_of_fields source mask mode invert freezes enable threshold
    have served : serveStatCtrl s.nextEvent (.configure counter record) =
        statReply (s.nextEvent.setStats (st.updCounter n fun x => { x with control := c, edge := false })) := by
      simp only [serveStatCtrl, index?_of_eq hn, named]
      rfl
    exact exec_statCtrl h (c := .configure supervisorPort tag counter record) rfl served rfl settled
  · have served : serveStatCtrl s.nextEvent (.filter which f.bytes) =
        statReply (s.nextEvent.setStats { st with filters := put st.filters n f }) := by
      simp only [serveStatCtrl, index?_of_eq hn, filterOfBytes_bytes]
      rfl
    exact exec_statCtrl h (c := .filter supervisorPort tag which f.bytes) rfl served rfl settled
  · exact exec_statCtrl h (c := .freezeOnHard supervisorPort tag value) rfl rfl rfl settled
  · refine refuses (c := .preset supervisorPort tag counter value) rfl ?_
    simp only [serveStatCtrl, index?_of_le (show 8 ≤ counter.toNat by omega)]
  · refine refuses (c := .configure supervisorPort tag counter record) rfl ?_
    rcases out with counter_out | record_out
    · simp only [serveStatCtrl, index?_of_le (show 8 ≤ counter.toNat by omega)]
    · simp only [serveStatCtrl, controlOfBytes_of_range record_out]
      cases index? 8 counter.toNat <;> rfl
  · refine refuses (c := .filter supervisorPort tag which record) rfl ?_
    simp only [serveStatCtrl, index?_of_le (show 2 ≤ which.toNat by omega)]
  · exact refuses (c := .undefinedAction supervisorPort tag action) rfl rfl

end Sys2Proof.Machine

/-! PROOFS. PARAM-SET and PARAM-GET: what a write stores, what a read returns, and the refusals. -/

namespace Sys2Proof.Machine

/-! ### The tests of PARAM-SET and PARAM-GET -/

theorem paramCount_of_unnamed {id : Byte} (h : id = 0 ∨ 31 < id.toNat) : paramCount id.toNat = none := by
  refine if_pos ?_
  rw [Bool.or_eq_true, decide_eq_true_eq, decide_eq_true_eq]
  exact h.imp (fun zero => congrArg BitVec.toNat zero) fun high => high

/-- The identifiers up to 28 that have one entry (R175). -/
theorem paramCount_of_single {id : Byte} (low : 1 ≤ id.toNat) (high : id.toNat ≤ 28) (rating : id ≠ 17) (group : id ≠ 18)
    (mode : id ≠ 26) : paramCount id.toNat = some 1 := by
  have rating : id.toNat ≠ 17 := by bv_omega
  have group : id.toNat ≠ 18 := by bv_omega
  have mode : id.toNat ≠ 26 := by bv_omega
  generalize id.toNat = k at *
  have named : ¬ (decide (k = 0) || decide (31 < k)) = true := by
    rw [Bool.or_eq_true, decide_eq_true_eq, decide_eq_true_eq]
    omega
  refine (if_neg named).trans ?_
  split
  case h_7 => rfl
  all_goals omega

theorem serveParamSet_of_unnamed {s : State} {id index : Byte} {v : BitVec 32} (h : paramCount id.toNat = none) :
    serveParamSet s id index v = (s, refuse .refusedParam) := by
  simp only [serveParamSet, h]

/-- A write of a parameter marked H while the engine is not HALTED (R175). -/
theorem serveParamSet_of_running {s : State} {id index : Byte} {n : Nat} (hn : paramCount id.toNat = some n)
    (hi : index.toNat < n) (marked : paramHaltedOnly id.toNat = true) (running : s.halted = false) (v : BitVec 32) :
    serveParamSet s id index v = (s, refuse .refusedState) := by
  simp only [serveParamSet, hn, Nat.not_le.2 hi, if_false, marked, running, Bool.not_false, Bool.and_self, if_true]

/-- A write that is refused, or that leaves the pending sets settled. -/
theorem exec_paramWrite {s u : State} {c : Instr} {tag id index : Byte} {v : BitVec 32} {x : Reply}
    (h : s.Listening supervisorPort) (hc : requestOf c = some (supervisorPort, { tag := tag, body := .paramSet id index v }))
    (hx : serveParamSet s.nextEvent id index v = (u, x)) (settled : ∀ q, (look u.router.sets q).fresh = []) :
    exec c s = .next (u.replyOn supervisorPort 16 tag x.code x.payload) := by
  have frame := serveParamSet_frame s.nextEvent id index v
  rw [hx] at frame
  obtain ⟨-, -, -, -, -, -, marked, -⟩ := frame
  exact exec_of_supervisor h hc (by simp) ((supervisorOnly_supervisorPort _ _).trans (congrArg answered hx)) marked settled

theorem exec_paramRefused {s : State} {c : Instr} {tag id index : Byte} {v : BitVec 32} {code : AnswerCode}
    (h : s.Listening supervisorPort) (hc : requestOf c = some (supervisorPort, { tag := tag, body := .paramSet id index v }))
    (hx : serveParamSet s.nextEvent id index v = (s.nextEvent, refuse code)) :
    exec c s = .next (s.replyOn supervisorPort 16 tag code 0) :=
  exec_paramWrite h hc hx h.quiet.settled

/-- A write that passes the tests of R175: the entries it adds take their places when its event ends. -/
theorem exec_paramEvent {s t : State} {c : Instr} {tag id index : Byte} {v : BitVec 32} {n stored : Nat}
    (h : s.Listening supervisorPort) (hc : requestOf c = some (supervisorPort, { tag := tag, body := .paramSet id index v }))
    (hn : paramCount id.toNat = some n) (hi : index.toNat < n) (hh : (paramHaltedOnly id.toNat && !s.halted) = false)
    (hw : (decide (id.toNat = 17) && !ratingWritable s.nextEvent index.toNat) = false)
    (ht : storeParam s.nextEvent id.toNat index.toNat v = t) (hs : getParam t id.toNat index.toNat = stored) :
    exec c s = .next (t.replyOn supervisorPort 16 tag (if stored = v.toNat then .ok else .okClamped)
      (id ++ index ++ f32 stored ++ 0#16)).endEvent := by
  have served := serveParamSet_of_accepted (s := s.nextEvent) hn hi hh hw ht hs
  have frame := serveParamSet_frame s.nextEvent id index v
  rw [served] at frame
  obtain ⟨-, -, -, -, -, -, marked, -⟩ := frame
  have taken : serveBody s.nextEvent supervisorPort { tag := tag, body := .paramSet id index v } = answered (_, _) :=
    (supervisorOnly_supervisorPort _ _).trans (congrArg answered served)
  rw [exec_of_requestOf hc, request_of_answer (serves_supervisor h) (by simp) taken marked]
  rfl

/-- A write that passes the tests of R175 and leaves the pending sets settled. -/
theorem exec_paramStored {s t : State} {c : Instr} {tag id index : Byte} {v : BitVec 32} {n stored : Nat}
    (h : s.Listening supervisorPort) (hc : requestOf c = some (supervisorPort, { tag := tag, body := .paramSet id index v }))
    (hn : paramCount id.toNat = some n) (hi : index.toNat < n) (hh : (paramHaltedOnly id.toNat && !s.halted) = false)
    (hw : (decide (id.toNat = 17) && !ratingWritable s.nextEvent index.toNat) = false)
    (ht : storeParam s.nextEvent id.toNat index.toNat v = t) (hs : getParam t id.toNat index.toNat = stored)
    (settled : ∀ q, (look t.router.sets q).fresh = []) :
    exec c s = .next (t.replyOn supervisorPort 16 tag (if stored = v.toNat then .ok else .okClamped)
      (id ++ index ++ f32 stored ++ 0#16)) := by
  rw [exec_paramEvent h hc hn hi hh hw ht hs, replyOn_endEvent settled]

/-! ### The parameters that are not indexed -/

theorem nearest_zero (hi v : Nat) : nearest 0 hi v = min hi v := Nat.zero_max _

theorem sampleSource_ofCode (n : Nat) : SampleSource.ofCode n = if n = 0 then .summed else .metered := by
  cases n <;> rfl

theorem sampleSource_code (n : Nat) : (if n = 0 then SampleSource.summed else .metered).code = min 1 n := by
  split
  · rename_i zero
    rw [zero]
    rfl
  · rename_i some
    exact (Nat.min_eq_left (show 1 ≤ n by omega)).symm

theorem hardResponse_ofCode (n : Nat) :
    HardResponse.ofCode n = if n = 0 then .report else if n = 1 then .freezeGroup else .freezePlant := by
  rcases n with _ | _ | n <;> rfl

theorem hardResponse_code (n : Nat) :
    (if n = 0 then HardResponse.report else if n = 1 then .freezeGroup else .freezePlant).code = min 2 n := by
  rcases n with _ | _ | n
  · rfl
  · rfl
  · exact (Nat.min_eq_left (show 2 ≤ n + 2 by omega)).symm

/-- A write of a parameter of the table that is not indexed. -/
theorem exec_paramSet_single {s : State} {tag id : Byte} {v : BitVec 32} {y : Params} {stored : Nat}
    (h : s.Listening supervisorPort) (hn : paramCount id.toNat = some 1)
    (hh : (paramHaltedOnly id.toNat && !s.halted) = false)
    (hw : (decide (id.toNat = 17) && !ratingWritable s.nextEvent 0) = false)
    (ht : storeParam s.nextEvent id.toNat 0 v = s.nextEvent.setParams y)
    (hs : getParam (s.nextEvent.setParams y) id.toNat 0 = stored) :
    exec (.paramSet supervisorPort tag id 0 v) s = .next
      (State.replyOn { s with params := y } supervisorPort 16 tag (if stored = v.toNat then .ok else .okClamped)
        (id ++ 0#8 ++ f32 stored ++ 0#16)) :=
  exec_paramStored (t := s.nextEvent.setParams y) (c := .paramSet supervisorPort tag id 0 v) h rfl hn (by decide) hh hw ht hs h.quiet.settled

/-- Settles O26: each write is one branch of `storeParam`, read back by the same branch of `getParam`. -/
theorem paramSetStores : Obligations.ParamSetStores := by
  intro s tag v h x n writes refused interval winShort winLong
  have write {id : Byte} {y : Params} {stored : Nat} := exec_paramSet_single (id := id) (y := y) (stored := stored) (tag := tag) (v := v) h
  have refuses {id index : Byte} {code : AnswerCode} := exec_paramRefused (tag := tag) (v := v) (code := code) h
    (c := .paramSet supervisorPort tag id index v) rfl
  refine ⟨fun halted => ?_, fun running => ?_, ?_, ?_, ?_, ?_, ?_, ?_, ?_, ?_, ?_, ?_, ?_, ?_, ?_, ?_, ?_, ?_, ?_, ?_, ?_, ?_,
    fun id index unnamed => ?_, fun id index low high rating group mode beyond => ?_⟩
  · have still (b : Bool) : (b && !s.halted) = false := by rw [halted, Bool.not_true, Bool.and_false]
    exact ⟨write rfl (still _) rfl rfl rfl, write rfl (still _) rfl rfl rfl, write rfl (still _) rfl rfl rfl,
      write rfl (still _) rfl rfl rfl⟩
  · have refuse {id : Byte} (hn : paramCount id.toNat = some 1) (marked : paramHaltedOnly id.toNat = true) :
        refused id 0 .refusedState :=
      refuses (serveParamSet_of_running (s := s.nextEvent) hn (by decide) marked running v)
    exact ⟨refuse rfl rfl, refuse rfl rfl, refuse rfl rfl, refuse rfl rfl⟩
  · exact write rfl rfl rfl (congrArg (fun k => s.nextEvent.setParams { x with limShort := k }) (nearest_zero ..)) rfl
  · exact write rfl rfl rfl (congrArg (fun k => s.nextEvent.setParams { x with limLong := k }) (nearest_zero ..)) rfl
  · exact write rfl rfl rfl (congrArg (fun k => s.nextEvent.setParams { x with sampleSource := k }) (sampleSource_ofCode n)) (sampleSource_code n)
  · exact write rfl rfl rfl (congrArg (fun k => s.nextEvent.setParams { x with socTarget := k }) (nearest_zero ..)) rfl
  · exact write rfl rfl rfl (congrArg (fun k => s.nextEvent.setParams { x with socGain := k }) (nearest_zero ..)) rfl
  · exact write rfl rfl rfl (congrArg (fun k => s.nextEvent.setParams { x with recoveryCap := k }) (nearest_zero ..)) rfl
  · exact write rfl rfl rfl (congrArg (fun k => s.nextEvent.setParams { x with socMin := min k x.socMax }) (nearest_zero ..)) rfl
  · exact write rfl rfl rfl (congrArg (fun k => s.nextEvent.setParams { x with socMax := max k x.socMin }) (nearest_zero ..)) rfl
  · exact write rfl rfl rfl (congrArg (fun k => s.nextEvent.setParams { x with tolSoft := min k x.tolHard }) (nearest_zero ..)) rfl
  · exact write rfl rfl rfl (congrArg (fun k => s.nextEvent.setParams { x with tolHard := max k x.tolSoft }) (nearest_zero ..)) rfl
  · exact write rfl rfl rfl (congrArg (fun k => s.nextEvent.setParams { x with hardResponse := k }) (hardResponse_ofCode n)) (hardResponse_code n)
  · exact write rfl rfl rfl (congrArg (fun k => s.nextEvent.setParams { x with freezeAuto := k }) (nearest_zero ..)) rfl
  · exact write rfl rfl rfl (congrArg (fun k => s.nextEvent.setParams { x with telWmin := k }) (nearest_zero ..)) rfl
  · exact write rfl rfl rfl rfl rfl
  · exact write rfl rfl rfl rfl rfl
  · exact write rfl rfl rfl (congrArg (fun k => s.nextEvent.setParams { x with ovsTol := k }) (nearest_zero ..)) rfl
  · exact write rfl rfl rfl rfl rfl
  · exact write rfl rfl rfl (congrArg (fun k => s.nextEvent.setParams { x with plausTol := k }) (nearest_zero ..)) rfl
  · exact write rfl rfl rfl (congrArg (fun k => s.nextEvent.setParams { x with faultCap := k }) (nearest_zero ..)) rfl
  · exact write rfl rfl rfl rfl rfl
  · exact refuses (serveParamSet_of_unnamed (s := s.nextEvent) (paramCount_of_unnamed unnamed))
  · exact refuses (serveParamSet_of_range (s := s.nextEvent) (paramCount_of_single low high rating group mode)
      (by bv_omega) v)

end Sys2Proof.Machine

/-! PROOFS. PARAM-SET of the indexed parameters, and PARAM-GET. -/

namespace Sys2Proof.Machine

/-! ### MON_MODE -/

theorem monMode_ofCode (n : Nat) :
    MonMode.ofCode n = if n = 0 then .off else if n = 1 then .warn else if n = 2 then .latched else .cycle := by
  rcases n with _ | _ | _ | n <;> rfl

theorem monMode_code (n : Nat) : (MonMode.ofCode n).code = min 3 n := by
  rcases n with _ | _ | _ | n
  · rfl
  · rfl
  · rfl
  · exact (Nat.min_eq_left (show 3 ≤ n + 3 by omega)).symm

/-- A write of the mode of one monitor, whose index is one of the four (R175). -/
theorem exec_monMode {s : State} {tag index : Byte} {v : BitVec 32} (h : s.Listening supervisorPort)
    (hi : index.toNat < 4) (read : ∀ m, getParam (s.nextEvent.setParams (s.params.writeMode index.toNat m)) 26 index.toNat = m.code) :
    exec (.monMode supervisorPort tag index v) s = .next
      (State.replyOn { s with params := s.params.writeMode index.toNat (MonMode.ofCode v.toNat) } supervisorPort 16 tag
        (if v.toNat ≤ 3 then .ok else .okClamped) (26#8 ++ index ++ f32 (min 3 v.toNat) ++ 0#16)) := by
  have stored := exec_paramStored (t := s.nextEvent.setParams _) (c := .monMode supervisorPort tag index v) h rfl rfl hi rfl rfl rfl
    ((read _).trans (monMode_code _)) h.quiet.settled
  rw [if_congr (min_eq_right_iff (a := 3)) rfl rfl] at stored
  exact stored

/-- Settles O27: the write is one field of the Parameter Table. -/
theorem monModeChangesTheModeOnly : Obligations.MonModeChangesTheModeOnly := by
  intro s tag index v h n mode writes
  have code : MonMode.ofCode v.toNat = mode := monMode_ofCode n
  refine ⟨?_, ?_, ?_, ?_, fun out => ?_⟩
  · rintro rfl
    exact code ▸ exec_monMode h (by decide) fun _ => rfl
  · rintro rfl
    exact code ▸ exec_monMode h (by decide) fun _ => rfl
  · rintro rfl
    exact code ▸ exec_monMode h (by decide) fun _ => rfl
  · rintro rfl
    exact code ▸ exec_monMode h (by decide) fun _ => rfl
  · exact exec_paramRefused (c := .monMode supervisorPort tag index v) h rfl (serveParamSet_of_range (n := 4) rfl out v)

/-! ### QUEUE_DEPTH -/

theorem dropEvents_eq (s : State) (p : Port) (n : Nat) :
    s.dropEvents p n = (fun w : State => w.statEvent .drop 0 p)^[n] s := by
  induction n generalizing s with
  | zero => rfl
  | succ n ih => exact ih _

theorem depth_ofValue (v : BitVec 32) : Depth.ofValue v.toNat = if v = 1 then .one else .four := by
  by_cases one : v = 1
  · rw [if_pos one, one]
    rfl
  · have other : v.toNat ≠ 1 := by bv_omega
    rw [if_neg one]
    unfold Depth.ofValue
    split
    · contradiction
    · rfl

theorem depth_frames_eq_iff (v : BitVec 32) : (if v = 1 then Depth.one else .four).frames = v.toNat ↔ v = 1 ∨ v = 4 := by
  by_cases one : v = 1
  · rw [if_pos one, one]
    exact ⟨fun _ => .inl rfl, fun _ => rfl⟩
  · rw [if_neg one]
    constructor
    · intro four
      exact .inr (by have : v.toNat = 4 := four.symm; bv_omega)
    · rintro (_ | rfl)
      · contradiction
      · rfl

theorem statEvent_setLastClear (s : State) (x : Option StationId) (src : StatSource) (mag : Nat) (p : Port) :
    (s.setLastClear x).statEvent src mag p = (s.statEvent src mag p).setLastClear x := by
  simp only [State.statEvent, State.statFreeze, apply_ite (fun w : State => w.setLastClear x), setLastClear_stats]
  rfl

theorem iterate_statEvent_setLastClear (s : State) (x : Option StationId) (p : Port) (n : Nat) :
    (fun w : State => w.statEvent .drop 0 p)^[n] (s.setLastClear x) =
      ((fun w : State => w.statEvent .drop 0 p)^[n] s).setLastClear x :=
  (Function.Semiconj.iterate_right (f := fun w : State => w.setLastClear x)
    (fun w => (statEvent_setLastClear w x .drop 0 p).symm) n s).symm

theorem storeParam_depth (s : State) {index : Nat} {q : Port} (h : index = q.val) (v : BitVec 32) :
    storeParam s 29 index v = s.writeDepth q v.toNat := by
  simp only [storeParam, index?_of_eq h]

theorem getParam_depth (s : State) {index : Nat} {q : Port} (h : index = q.val) :
    getParam s 29 index = (s.port q).depth.frames := by
  simp only [getParam, index?_of_eq h, Option.map_some, Option.getD_some]

/-- The write of a depth cuts the queue and hands over a DROP event for each frame that goes (R168). -/
theorem writeDepth_eq (s : State) (q : Port) (v : BitVec 32) {d : Depth} (h : Depth.ofValue v.toNat = d) :
    s.writeDepth q v.toNat =
      (fun w : State => w.statEvent .drop 0 q)^[(s.port q).requests.length - d.frames]
        (s.updPort q fun x =>
          { x with
            depth := d, requests := x.requests.take d.frames
            drop := x.drop || decide (0 < (s.port q).requests.length - d.frames) }) := by
  subst h
  exact dropEvents_eq ..

theorem iterate_statEvent_ports (s : State) (p : Port) (n : Nat) :
    ((fun w : State => w.statEvent .drop 0 p)^[n] s).ports = s.ports := by
  induction n generalizing s with
  | zero => rfl
  | succ n ih => exact (ih _).trans (by simp)

/-- Settles O30: the write cuts the queue and hands over its DROP events (`writeDepth_eq`); the entries that they fire
take their places when the event ends. -/
theorem queueDepthDiscardsNewest : Obligations.QueueDepthDiscardsNewest := by
  intro s tag index v h d
  constructor
  · intro q hq n u
    have wrote : storeParam s.nextEvent 29 index.toNat v = (fun w : State => w.statEvent .drop 0 q)^[n] u.nextEvent :=
      (storeParam_depth _ hq v).trans (writeDepth_eq s.nextEvent q v (depth_ofValue v))
    have read : getParam ((fun w : State => w.statEvent .drop 0 q)^[n] u.nextEvent) 29 index.toNat = d.frames := by
      rw [getParam_depth _ hq, port_congr (iterate_statEvent_ports _ q n) q]
      simp [u, State.nextEvent]
    have wrote := exec_paramEvent (c := .queueDepth supervisorPort tag index v) h rfl (n := 12) rfl (by omega) rfl rfl wrote read
    rw [show u.nextEvent = u.setLastClear none from rfl, iterate_statEvent_setLastClear,
      if_congr (depth_frames_eq_iff v) rfl rfl] at wrote
    exact wrote
  · intro out
    exact exec_paramRefused (c := .queueDepth supervisorPort tag index v) h rfl (serveParamSet_of_range (n := 12) rfl out v)

/-! ### URGENT and ROUTE -/

theorem storeParam_urgent (s : State) {index : Nat} {n : Fin 8} (h : index = n.val) (v : BitVec 32) :
    storeParam s 30 index v =
      s.setParams { s.params with urgent := put s.params.urgent n (urgentStored s.params.urgent n v.toNat) } := by
  simp only [storeParam, index?_of_eq h]

theorem getParam_urgent (s : State) {index : Nat} {n : Fin 8} (h : index = n.val) :
    getParam s 30 index = urgentCode (look s.params.urgent n) := by
  simp only [getParam, index?_of_eq h, Option.map_some, Option.getD_some]

/-- A write of an URGENT position, by what `urgentStored` makes of the value. -/
theorem exec_urgent {s : State} {tag index : Byte} {v : BitVec 32} {n : Fin 8} {x : Option Byte}
    (h : s.Listening supervisorPort) (hn : index.toNat = n.val) (stored : urgentStored s.params.urgent n v.toNat = x) :
    exec (.urgent supervisorPort tag index v) s = .next
      (State.replyOn { s with params := { s.params with urgent := put s.params.urgent n x } } supervisorPort 16 tag
        (if urgentCode x = v.toNat then .ok else .okClamped) (30#8 ++ index ++ f32 (urgentCode x) ++ 0#16)) := by
  subst stored
  have read (y : Option Byte) : getParam (s.nextEvent.setParams { s.params with urgent := put s.params.urgent n y }) 30
      index.toNat = urgentCode y :=
    (getParam_urgent _ hn).trans (congrArg urgentCode ((look_put ..).trans (if_pos rfl)))
  have wrote := exec_paramStored (c := .urgent supervisorPort tag index v) h rfl (n := 8) rfl (by omega) rfl rfl
    (storeParam_urgent s.nextEvent hn v) (read _) h.quiet.settled
  exact wrote

/-- A position is emptied by the empty code, by a value above it, by a code that names no kind, and by one that stands
in another position (R171). -/
theorem urgentStored_eq_none {urgent : Vector (Option Byte) 8} {n : Fin 8} {v : Nat}
    (h : 255 ≤ v ∨ kindDefined (BitVec.ofNat 8 v) = false ∨ ∃ m, m ≠ n ∧ look urgent m = some (BitVec.ofNat 8 v)) :
    urgentStored urgent n v = none := by
  refine if_neg ?_
  simp only [Bool.and_eq_true, decide_eq_true_eq, Bool.not_eq_true', List.any_eq_false, List.mem_finRange, true_imp_iff,
    bne_iff_ne, beq_iff_eq, not_and, not_forall, not_not]
  rintro ⟨low, defined⟩
  rcases h with high | unnamed | ⟨m, other, held⟩
  · omega
  · rw [unnamed] at defined
    exact absurd defined (by decide)
  · exact ⟨m, other, held⟩

theorem urgentStored_eq_some {urgent : Vector (Option Byte) 8} {n : Fin 8} {k : Byte} (defined : kindDefined k = true)
    (alone : ∀ m, m ≠ n → look urgent m ≠ some k) : urgentStored urgent n k.toNat = some k := by
  have low : k.toNat < 255 := by
    simp only [kindDefined, Bool.or_eq_true, Bool.and_eq_true, decide_eq_true_eq] at defined
    omega
  have same : (BitVec.ofNat 8 k.toNat) = k := by simp
  simp only [urgentStored, same, low, defined]
  refine if_pos ?_
  simpa using alone

theorem toNat_zeroExtend (k : Byte) : (k.zeroExtend 32).toNat = k.toNat :=
  (BitVec.toNat_setWidth ..).trans (Nat.mod_eq_of_lt (k.isLt.trans (by decide)))

theorem storeParam_route (s : State) {index : Nat} {k : Fin 12} (h : index = k.val) (v : BitVec 32) :
    storeParam s 31 index v = s.setRouter { s.router with routes := put s.router.routes k (Route.ofValue k v) } := by
  simp only [storeParam, index?_of_eq h]

theorem getParam_route (s : State) {index : Nat} {k : Fin 12} (h : index = k.val) :
    getParam s 31 index = (look s.router.routes k).code := by
  simp only [getParam, index?_of_eq h, Option.map_some, Option.getD_some]

/-- The number of the routing entry that a value stores: its low twelve bits, and its two flags (R155). -/
theorem routeCode_ofValue (k : Fin 12) (v : BitVec 32) :
    (Route.ofValue k v).code = v.toNat % 4096 + (if v.getLsbD 12 && decide (k.val ≤ 2) then 4096 else 0) +
      (if v.getLsbD 13 then 8192 else 0) := by
  have low : (v.truncate 12).toNat = v.toNat % 4096 := BitVec.toNat_setWidth ..
  have clear : ((if v.getLsbD 13 then Release.clear else .ack) == .clear) = v.getLsbD 13 := by
    cases v.getLsbD 13 <;> rfl
  simp only [Route.code, Route.ofValue, low, clear, flagAt_eq]
  rfl

/-- Settles O31: a URGENT position holds what `urgentStored` gives, and a routing entry is written whole, with no pending
entry in it. -/
theorem urgentAndRouteWrites : Obligations.UrgentAndRouteWrites := by
  refine ⟨fun s tag index v h => ⟨fun n hn => ?_, fun out => ?_⟩, fun s tag index v h => ⟨fun k hk => ?_, fun out => ?_⟩⟩
  · intro writes
    have cleared (gone : urgentStored s.params.urgent n v.toNat = none) :
        writes none (if 255 = v.toNat then .ok else .okClamped) 255 := exec_urgent h hn gone
    refine ⟨fun empty => ?_, fun k named defined alone => ?_, fun k named other apart => ?_, fun high => ?_⟩
    · have wrote := cleared (urgentStored_eq_none (.inl (by rw [empty]; decide)))
      rwa [if_pos (by rw [empty]; rfl)] at wrote
    · have value : v.toNat = k.toNat := named ▸ toNat_zeroExtend k
      have wrote := exec_urgent (tag := tag) h hn (v := v) (x := some k) (by rw [value]; exact urgentStored_eq_some defined alone)
      rwa [if_pos (show urgentCode (some k) = v.toNat from value.symm)] at wrote
    · have value : v.toNat = k.toNat := named ▸ toNat_zeroExtend k
      have same : (BitVec.ofNat 8 v.toNat) = k := by simp [value]
      have wrote := cleared (urgentStored_eq_none (.inr (by rw [same]; exact apart)))
      rwa [if_neg (by bv_omega)] at wrote
    · have wrote := cleared (urgentStored_eq_none (.inl (by omega)))
      rwa [if_neg (by omega)] at wrote
  · exact exec_paramRefused (c := .urgent supervisorPort tag index v) h rfl (serveParamSet_of_range (n := 8) rfl out v)
  · intro own stored
    have read := (getParam_route (storeParam s.nextEvent 31 index.toNat v) hk).trans (congrArg Route.code
      ((congrArg (fun t : State => look t.router.routes k) (storeParam_route s.nextEvent hk v)).trans
        ((look_put ..).trans (if_pos rfl))))
    have wrote := exec_paramStored (c := .route supervisorPort tag index v) h rfl (n := 12) rfl (by omega) rfl rfl
      (storeParam_route s.nextEvent hk v) ((congrArg (getParam · 31 index.toNat) (storeParam_route s.nextEvent hk v)).symm.trans
        (read.trans (routeCode_ofValue k v))) h.quiet.settled
    exact wrote
  · exact exec_paramRefused (c := .route supervisorPort tag index v) h rfl (serveParamSet_of_range (n := 12) rfl out v)

end Sys2Proof.Machine

/-! PROOFS. PARAM-GET, the writes that find raise-ready again, and ENG-START. -/

namespace Sys2Proof.Machine

/-! ### PARAM-GET -/

theorem exec_paramGet {s : State} {tag id index : Byte} {x : Reply} (h : s.Listening supervisorPort)
    (hx : serveParamGet s.nextEvent id index = (s.nextEvent, x)) :
    exec (.paramGet supervisorPort tag id index) s = .next (s.replyOn supervisorPort 17 tag x.code x.payload) :=
  exec_of_supervisor (u := s.nextEvent) (c := .paramGet supervisorPort tag id index) h rfl (by simp)
    ((supervisorOnly_supervisorPort _ _).trans (congrArg answered hx)) rfl h.quiet.settled

theorem serveParamGet_of_unnamed {s : State} {id index : Byte} (h : paramCount id.toNat = none) :
    serveParamGet s id index = (s, refuse .refusedParam) := by
  simp only [serveParamGet, h]

theorem serveParamGet_of_range {s : State} {id index : Byte} {n : Nat} (hn : paramCount id.toNat = some n)
    (hi : n ≤ index.toNat) : serveParamGet s id index = (s, refuse .refusedRange) := by
  simp only [serveParamGet, hn, hi, if_true]

theorem serveParamGet_of_named {s : State} {id index : Byte} {n : Nat} (hn : paramCount id.toNat = some n)
    (hi : index.toNat < n) :
    serveParamGet s id index =
      (s, { code := .ok, payload := paramPayload id index (getParam s id.toNat index.toNat) }) := by
  simp only [serveParamGet, hn, Nat.not_le.2 hi, if_false]

theorem getParam_group (s : State) {index : Nat} {i : StationId} (h : index = i.val) :
    getParam s 18 index = (s.station i).group.val := by
  simp only [getParam, index?_of_eq h, Option.map_some, Option.getD_some]

theorem sampleSource_code_eq (x : SampleSource) : x.code = if x = .metered then 1 else 0 := by cases x <;> rfl

theorem urgentCode_eq (x : Option Byte) : urgentCode x = match x with | some k => k.toNat | none => 255 := by
  cases x <;> rfl

theorem routeCode_eq (r : Route) :
    r.code = r.mask.toNat + (if r.ownPort then 4096 else 0) + (if r.release = .clear then 8192 else 0) := by
  simp only [Route.code, flagAt_eq, beq_iff_eq]
  rfl

/-- Settles O32: each read is one branch of `getParam`. -/
theorem paramGetReturnsStored : Obligations.ParamGetReturnsStored := by
  intro s tag h x reads refused
  have read {id index : Byte} {n stored : Nat} (hn : paramCount id.toNat = some n) (hi : index.toNat < n)
      (hs : getParam s id.toNat index.toNat = stored) : reads id index stored := by
    subst hs
    exact exec_paramGet h (serveParamGet_of_named (s := s.nextEvent) hn hi)
  have single {id : Byte} {stored : Nat} (hn : paramCount id.toNat = some 1) (hs : getParam s id.toNat 0 = stored) :
      reads id 0 stored := read hn (by decide) hs
  have beyond {id index : Byte} {n : Nat} (hn : paramCount id.toNat = some n) (hi : n ≤ index.toNat) :
      refused id index .refusedRange := exec_paramGet h (serveParamGet_of_range (s := s.nextEvent) hn hi)
  refine ⟨single rfl rfl, single rfl rfl, single rfl rfl, single rfl rfl, single rfl rfl, single rfl rfl,
    single rfl (sampleSource_code_eq _), single rfl rfl, single rfl rfl, single rfl rfl, single rfl rfl, single rfl rfl,
    single rfl rfl, single rfl rfl, single rfl rfl, single rfl rfl, single rfl rfl, single rfl rfl, single rfl rfl,
    single rfl rfl, single rfl rfl, single rfl rfl, single rfl rfl, read (n := 4) rfl (by decide) rfl,
    read (n := 4) rfl (by decide) rfl, read (n := 4) rfl (by decide) rfl, read (n := 4) rfl (by decide) rfl,
    single rfl rfl, single rfl rfl, fun index i hi => ?_, fun index q hq => ?_, fun index n hn => ?_, fun index k hk => ?_,
    fun id index unnamed => ?_, fun id index low high rating group mode out => ?_, fun index => ?_⟩
  · exact ⟨read (n := 10) rfl (by omega) (getParam_rating s hi), read (n := 10) rfl (by omega) (getParam_group s hi)⟩
  · exact read (n := 12) rfl (by omega) (getParam_depth s hq)
  · exact read (n := 8) rfl (by omega) ((getParam_urgent s hn).trans (urgentCode_eq _))
  · exact read (n := 12) rfl (by omega) ((getParam_route s hk).trans (routeCode_eq _))
  · exact exec_paramGet h (serveParamGet_of_unnamed (s := s.nextEvent) (paramCount_of_unnamed unnamed))
  · exact beyond (paramCount_of_single low high rating group mode) (by bv_omega)
  · exact ⟨beyond (n := 4) rfl, beyond (n := 8) rfl, fun out => ⟨beyond (n := 10) rfl out, beyond (n := 10) rfl out⟩,
      fun out => ⟨beyond (n := 12) rfl out, beyond (n := 12) rfl out⟩⟩

/-! ### Raise-ready found again -/

/-- A set that agrees but for some pairs agrees on every other pair. -/
theorem Router.AgreesOff.agreesAt {x y : Router} {may : CauseKind → StationId → Bool} (h : x.AgreesOff y may)
    {k : CauseKind} {i : StationId} (off : may k i = false) (p : Port) : y.AgreesAt x k i p := by
  have within (es : List PendingEntry) : es.filter (fun e => e.isFor k i) =
      (es.filter fun e => !may e.kind e.inst).filter fun e => e.isFor k i := by
    rw [List.filter_filter]
    refine List.filter_congr fun e _ => ?_
    by_cases own : e.isFor k i = true
    · obtain ⟨rfl, rfl⟩ := (isFor_iff e k i).1 own
      simp only [own, off, Bool.not_false, Bool.and_self]
    · simp only [own, Bool.false_and]
  rw [Router.AgreesAt, within, within (look x.sets p).all, h.others p]

theorem settle_of_settled {x : Router} (h : ∀ q, (look x.sets q).fresh = []) : x.settle = x := by
  refine congrArg (fun sets => { x with sets := sets }) (table_ext fun p => ?_)
  rw [look_tabulate, PendingSet.settle, all_of_settled (h p), ← h p]

/-- The evaluation of one flag, at the end of its event (R88, R89). -/
theorem evalReady_endEvent {s : State} (settled : ∀ q, (look s.router.sets q).fresh = []) (i : StationId) :
    (s.evalReady i).endEvent =
      { s.updStation i (fun e => { e with ready := s.readyCondition i }) with
        router := s.router.readyChange i (s.station i).ready (s.readyCondition i) } := by
  cases condition : s.readyCondition i with
  | false =>
    rw [evalReady_of_condition_false condition]
    exact endEvent_of_settled (readyChange_settled settled i _ _)
  | true =>
    rw [evalReady_of_condition_true condition]
    cases (s.station i).ready with
    | false => rfl
    | true => exact congrArg (State.setRouter _) (settle_of_settled settled)

theorem evalReadyAll_eq (s : State) :
    s.evalReadyAll = { s with stations := s.evalReadyAll.stations, router := s.evalReadyAll.router } := by
  obtain ⟨params, engine, published, heldTakes, storage, ramp, stats, ports, choices, lastClear, pending⟩ :=
    evalReadyAll_frame s
  rw [← params, ← engine, ← published, ← heldTakes, ← storage, ← ramp, ← stats, ← ports, ← choices, ← lastClear,
    ← pending]

theorem evalReadyAll_station (s : State) (i : StationId) :
    s.evalReadyAll.station i = { s.station i with ready := s.readyCondition i } := by
  rw [(evalReadyAll_readyFound s).station i, if_pos (mem_stationIds i)]

/-- The condition of R88, written out. -/
theorem readyCondition_iff (s : State) (i : StationId) :
    s.readyCondition i = true ↔
      ((s.station i).state = .online ∧ look s.published.mask i = true ∧ (s.station i).interlock = none ∧
        (look s.ramp.scopes (groupScope (s.station i).group)).frozen = false ∧
        (look s.ramp.scopes plantScope).frozen = false ∧ 0 < s.params.raiseStep ∧
        (s.station i).applied + s.params.raiseStep ≤ min (look s.published.offers i) (s.station i).rating) := by
  simp only [State.readyCondition, State.raiseFrozen, Bool.and_eq_true, beq_iff_eq, Bool.not_eq_true',
    Bool.or_eq_false_iff, decide_eq_true_eq, Option.isNone_iff_eq_none, and_assoc]
  rfl

/-! ### PARAM-SET of STATION_GROUP and of RAISE_STEP -/

theorem endEvent_replyOn (s : State) (p : Port) (k g : Byte) (c : AnswerCode) (x : BitVec 64) :
    (s.replyOn p k g c x).endEvent = s.endEvent.replyOn p k g c x := rfl

theorem storeParam_group (s : State) {index : Nat} {i : StationId} (h : index = i.val) (v : BitVec 32) :
    storeParam s 18 index v = s.writeGroup i v.toNat := by
  simp only [storeParam, index?_of_eq h]

/-- Settles O29: each write is the stored value, and then raise-ready found again (`evalReady_endEvent`,
`evalReadyAll_readyFound`). -/
theorem groupAndRaiseStepReevaluate : Obligations.GroupAndRaiseStepReevaluate := by
  refine ⟨fun s tag index v h => ⟨fun i hi => ?_, fun out => ?_⟩, fun s tag v h => ?_, fun s tag index v h out => ?_⟩
  · intro g u
    have read : getParam (u.nextEvent.evalReady i) 18 index.toNat = g.val := by
      rw [getParam_group _ hi, station_evalReady, if_pos rfl]
      show (u.station i).group.val = g.val
      rw [station_updStation, if_pos rfl]
    have store : storeParam s.nextEvent 18 index.toNat v = u.nextEvent.evalReady i := storeParam_group _ hi v
    have wrote := exec_paramEvent (tag := tag) (c := .stationGroup supervisorPort tag index v) h rfl (n := 10) rfl (by omega)
      rfl rfl store read
    have found := evalReady_endEvent (s := u.nextEvent) h.quiet.settled i
    have before : (u.nextEvent.station i).ready = (s.station i).ready := by
      show (u.station i).ready = (s.station i).ready
      rw [station_updStation, if_pos rfl]
    rw [if_congr (min_eq_right_iff (a := 3)) rfl rfl] at wrote
    rw [before] at found
    generalize u.nextEvent.evalReady i = t at wrote found
    refine wrote.trans (congrArg Host.Outcome.next ?_)
    rw [endEvent_replyOn, found]
    rfl
  · exact exec_paramRefused (c := .stationGroup supervisorPort tag index v) h rfl (serveParamSet_of_range (n := 10) rfl out v)
  · intro r
    let w : State := s.nextEvent.setParams { s.params with raiseStep := r }
    have found := evalReadyAll_readyFound w
    have store : storeParam s.nextEvent 28 0 v = w.evalReadyAll :=
      congrArg (fun k => (s.nextEvent.setParams { s.params with raiseStep := k }).evalReadyAll) (nearest_zero ..)
    have read : getParam w.evalReadyAll 28 0 = r := congrArg Params.raiseStep found.params
    have entry : ∀ i, w.evalReadyAll.station i = { s.station i with ready := w.readyCondition i } := evalReadyAll_station w
    have only := evalReadyAll_eq w
    have wrote := exec_paramEvent (tag := tag) (c := .raiseStep supervisorPort tag 0 v) h rfl (n := 1) rfl (by decide) rfl rfl
      store read
    generalize w.evalReadyAll = u at found store read entry only wrote
    refine ⟨_, wrote, ?_, fun i => ?_, fun i => ?_, ?_, fun i q => ?_⟩
    · rw [endEvent_replyOn, only]
      rfl
    · exact (entry i).trans (congrArg (fun b => { s.station i with ready := b }) (congrArg Station.ready (entry i)).symm)
    · exact (congrArg (fun e : Station => e.ready = true) (entry i)).to_iff.trans (readyCondition_iff w i)
    · exact ((found.others _ fun _ => rfl).trans (settle_agreesOff _ _)).differsOnly h.quiet.settled fun q => by
        simp only [Router.settle, look_tabulate, PendingSet.settle]
    · exact (settle_agrees _ _ i q).trans (found.notice i q)
  · exact exec_paramRefused (c := .raiseStep supervisorPort tag index v) h rfl
      (serveParamSet_of_range (n := 1) rfl (by bv_omega) v)

end Sys2Proof.Machine

/-! PROOFS. ENG-START: the empty session, and the scopes it releases. -/

namespace Sys2Proof.Machine

/-- Two evaluations after one another show as one, where the second leaves the flag clear (R89). -/
theorem readyChange_readyChange_false (x : Router) (i : StationId) {a b : Bool} (h : b = true → a = true) :
    (x.readyChange i a b).readyChange i b false = x.readyChange i a false := by
  cases b with
  | false => exact readyChange_same _ _ _
  | true => rw [h rfl, readyChange_same]

/-! ### The empty session -/

/-- What ENG-START writes before it releases the scopes (R10, R43, R141). -/
def State.session (s : State) : State :=
  { s with
    engine := { run := .running, timer := .running s.params.interval, counter := 0, meter := none, history := [],
                queues := Extrema.empty }
    published := Published.cleared
    stations := tabulate fun i => { s.station i with age := 0 }
    storage := { s.storage with age := 0 }
    stats := s.stats.clearEdges }

/-- All five scopes released (R129). -/
def releasedScopes : Vector Scope 5 := Vector.replicate 5 Scope.released

theorem startEngine_eq (s : State) : s.startEngine = (s.session.releaseScopes releasedScopes).evalReadyAll := rfl

/-- Against the cleared record no station is raise-ready (R88). -/
theorem readyCondition_of_cleared {s : State} (h : s.published = Published.cleared) (i : StationId) :
    s.readyCondition i = false := by
  refine readyCondition_of_unmasked ?_
  rw [h]
  exact look_replicate ..

theorem session_station (s : State) (i : StationId) : s.session.station i = { s.station i with age := 0 } :=
  look_tabulate ..

theorem startEngine_station (s : State) (i : StationId) :
    s.startEngine.station i = { s.station i with age := 0, ready := false } := by
  have cleared : (s.session.releaseScopes releasedScopes).published = Published.cleared :=
    (releaseScopes_frame ..).2.2.1
  rw [startEngine_eq, evalReadyAll_station, readyCondition_of_cleared cleared, releaseScopes_station, session_station]

/-- Released scopes end the FREEZE condition where there was one. -/
theorem thaws_releasedScopes (s : State) :
    s.thaws releasedScopes = decide (∃ n, (look s.ramp.scopes n).frozen = true) := by
  have none_left : ∀ n, (look releasedScopes n).frozen = false := fun n => by rw [releasedScopes, look_replicate]; rfl
  have thawed : (Ramp.anyFrozen { s.ramp with scopes := releasedScopes }) = false := by
    rw [Bool.eq_false_iff, ne_eq, anyFrozen_iff]
    rintro ⟨n, frozen⟩
    exact Bool.false_ne_true ((none_left n).symm.trans frozen)
  have freed : s.frees releasedScopes = true ↔ ∃ n, (look s.ramp.scopes n).frozen = true :=
    frees_iff.trans (exists_congr fun n => and_iff_left (none_left n))
  rw [State.thaws, thawed, Bool.not_false, Bool.and_true, Bool.eq_iff_iff, freed, decide_eq_true_iff]

/-- But for RAISE-READY, the pending sets show the end report of FREEZE, if there was one, and nothing else. -/
theorem startEngine_agreesOff (s : State) {may : CauseKind → StationId → Bool} (h : ∀ i, may .raiseReady i = true) :
    (s.router.endedIf (decide (∃ n, (look s.ramp.scopes n).frozen = true)) .freeze 0).AgreesOff s.startEngine.router may := by
  have released := (releaseScopes_readyFound s.session releasedScopes).others may h
  rw [show (s.session.withScopes releasedScopes).router = s.router.endedIf (s.session.thaws releasedScopes) .freeze 0 from rfl,
    thaws_releasedScopes] at released
  exact released.trans ((evalReadyAll_readyFound _).others may h)

theorem startEngine_readyNotice (s : State) (i : StationId) (q : Port) : s.ReadyNotice s.startEngine i q := by
  let u := s.session.releaseScopes releasedScopes
  have cleared : u.published = Published.cleared := (releaseScopes_frame ..).2.2.1
  have first : s.session.ReadyNotice u i q := releaseScopes_readyNotice s.session releasedScopes i q
  have second : u.ReadyNotice u.evalReadyAll i q := (evalReadyAll_readyFound u).notice i q
  have before : (s.session.station i).ready = (s.station i).ready := by rw [session_station]
  have between : (u.station i).ready = true → (s.station i).ready = true := by
    rw [releaseScopes_station, readyCondition_of_cleared cleared, before]
    split
    · exact fun absurd => by cases absurd
    · exact fun same => same
  have after : (u.evalReadyAll.station i).ready = false := by
    rw [evalReadyAll_station]
    exact readyCondition_of_cleared cleared i
  unfold State.ReadyNotice at *
  rw [before] at first
  rw [startEngine_eq, after]
  rw [after] at second
  rw [← readyChange_readyChange_false _ _ between]
  have routes : u.router.routes = (s.session.router.readyChange i (s.station i).ready (u.station i).ready).routes := by
    have released := ((releaseScopes_readyFound s.session releasedScopes).others (fun _ _ => true) fun _ => rfl).routes
    have ended := (endedIf_agreesOff (may := fun _ _ => true) (k := .freeze) (i := 0) s.session.router rfl
      (s.session.thaws releasedScopes)).routes
    have changed := (readyChange_agreesOff (may := fun _ _ => true) s.session.router (i := i) rfl (s.station i).ready
      (u.station i).ready).routes
    exact (released.trans ended).trans changed.symm
  exact second.trans (readyChange_agrees routes first _ _)

theorem startEngine_eq_of_parts (s : State) :
    s.startEngine =
      { s with
        engine := { run := .running, timer := .running s.params.interval, counter := 0, meter := none, history := [],
                    queues := Extrema.empty }
        published := Published.cleared
        stations := tabulate fun i => { s.station i with age := 0, ready := false }
        storage := { s.storage with age := 0 }
        ramp := { s.ramp with scopes := releasedScopes }
        stats := s.stats.clearEdges
        router := s.startEngine.router } := by
  have stations : s.startEngine.stations = tabulate fun i => { s.station i with age := 0, ready := false } :=
    table_ext fun i => by
    rw [look_tabulate]
    exact startEngine_station s i
  rw [← stations, startEngine_eq]
  have all := evalReadyAll_eq (s.session.releaseScopes releasedScopes)
  have released := releaseScopes_eq s.session releasedScopes
  generalize (s.session.releaseScopes releasedScopes).evalReadyAll = t at all ⊢
  generalize s.session.releaseScopes releasedScopes = u at all released
  rw [all, released]
  rfl

/-- Settles O33: the session is empty and its record cleared, so that no station is raise-ready; the scopes' release ends
the FREEZE condition (`thaws_releasedScopes`). -/
theorem engStartStartsEmpty : Obligations.EngStartStartsEmpty := by
  intro s tag h
  refine ⟨fun running => ?_, fun halted => ?_⟩
  · have served : serveEngStart s.nextEvent = (s.nextEvent, refuse .refusedState) :=
      if_neg (by rw [show s.nextEvent.halted = false from running]; decide)
    exact exec_of_supervisor (c := .engStart supervisorPort tag) h rfl (by simp)
      ((supervisorOnly_supervisorPort _ _).trans (congrArg answered served)) rfl h.quiet.settled
  · have served : serveEngStart s.nextEvent = (s.nextEvent.startEngine, { code := .ok, payload := 0 }) := if_pos halted
    have taken : serveBody s.nextEvent supervisorPort { tag := tag, body := .engStart } = answered (_, _) :=
      (supervisorOnly_supervisorPort _ _).trans (congrArg answered served)
    have marked : s.nextEvent.startEngine.lastClear = none := (startEngine_frame _).2.2.2.2.1
    have parts := startEngine_eq_of_parts s.nextEvent
    have off {may : CauseKind → StationId → Bool} := startEngine_agreesOff s.nextEvent (may := may)
    have ready := startEngine_readyNotice s.nextEvent
    have arrived : exec (.engStart supervisorPort tag) s = _ :=
      (exec_of_requestOf rfl s).trans (congrArg Host.Outcome.next (request_of_answer (serves_supervisor h) (by simp) taken marked))
    generalize s.nextEvent.startEngine = u at parts off ready arrived
    have settledAt : ∀ q, (look u.endEvent.router.sets q).fresh = [] := endEvent_settled u
    refine ⟨_, arrived, ?_, ?_, fun i q => ?_, fun q => ?_⟩
    · rw [endEvent_replyOn, parts]
      rfl
    · have ended : s.router.AgreesOff _ (fun k _ => k == .raiseReady || k == .freeze) :=
        endedIf_agreesOff s.router (k := .freeze) (i := 0) rfl (decide (∃ n, (look s.ramp.scopes n).frozen = true))
      exact ((ended.trans (off fun _ => rfl)).trans (settle_agreesOff _ _)).differsOnly h.quiet.settled settledAt
    · exact (settle_agrees _ _ i q).trans (ready i q)
    · exact (settle_agrees _ _ 0 q).trans ((off (may := fun k _ => k == .raiseReady) fun _ => rfl).agreesAt rfl q)

end Sys2Proof.Machine

/-! PROOFS. The windows' extremes, the offers, the responsible station, the firings and the source events. -/

namespace Sys2Proof.Machine

/-! ### The fronts of the extremum queues (R20) -/

/-- The front of a window's survivors dominates no sample of the window but is one of them, where domination is a total
order of the values. -/
theorem front_survivors {dominated : Nat → Nat → Bool} (refl : ∀ a, dominated a a = true)
    (total : ∀ a b, dominated a b = false → dominated b a = true)
    (trans : ∀ a b c, dominated a b = true → dominated b c = true → dominated a c = true)
    {window : List HistEntry} (h : window ≠ []) :
    (∃ e ∈ window, e.sample = front (survivors dominated window)) ∧
      ∀ e ∈ window, dominated e.sample (front (survivors dominated window)) = true := by
  induction window with
  | nil => contradiction
  | cons e older ih =>
    by_cases alone : older = []
    · subst alone
      exact ⟨⟨e, List.mem_cons_self .., rfl⟩, fun x mem => by rw [List.mem_singleton.1 mem]; exact refl _⟩
    obtain ⟨⟨o, held, value⟩, least⟩ := ih alone
    rw [survivors]
    cases gone : dominated (front (survivors dominated older)) e.sample with
    | true =>
      have all_gone : ((survivors dominated older).filter fun x => !dominated x.value e.sample) = [] := by
        refine List.filter_eq_nil_iff.2 fun x mem => ?_
        obtain ⟨o, within, same⟩ := mem_survivors_number mem
        have below := trans _ _ _ (least o within) gone
        rw [same]
        simpa using below
      rw [all_gone]
      refine ⟨⟨e, List.mem_cons_self .., rfl⟩, fun x mem => ?_⟩
      rcases List.mem_cons.1 mem with rfl | old
      · exact refl _
      · exact trans _ _ _ (least x old) gone
    | false =>
      have kept : front ((survivors dominated older).filter (fun x => !dominated x.value e.sample) ++
          [{ number := e.number, value := e.sample }]) = front (survivors dominated older) := by
        cases queue : survivors dominated older with
        | nil =>
          cases older with
          | nil => contradiction
          | cons o rest => simp only [survivors, List.append_eq_nil_iff, reduceCtorEq, and_false] at queue
        | cons x rest =>
          rw [queue] at gone
          rw [List.filter_cons, show dominated x.value e.sample = false from gone]
          rfl
      rw [kept]
      refine ⟨⟨o, List.mem_cons_of_mem _ held, value⟩, fun x mem => ?_⟩
      rcases List.mem_cons.1 mem with rfl | old
      · exact total _ _ gone
      · exact least x old

theorem front_minSurvivors {window : List HistEntry} (h : window ≠ []) :
    (∃ e ∈ window, e.sample = front (survivors minDominated window)) ∧
      ∀ e ∈ window, front (survivors minDominated window) ≤ e.sample := by
  obtain ⟨held, least⟩ := front_survivors (dominated := minDominated) (by simp [minDominated])
    (fun a b => by simp only [minDominated, decide_eq_false_iff_not, decide_eq_true_eq]; omega)
    (fun a b c => by simp only [minDominated, decide_eq_true_eq]; omega) h
  exact ⟨held, fun e mem => of_decide_eq_true (least e mem)⟩

theorem front_maxSurvivors {window : List HistEntry} (h : window ≠ []) :
    (∃ e ∈ window, e.sample = front (survivors maxDominated window)) ∧
      ∀ e ∈ window, e.sample ≤ front (survivors maxDominated window) := by
  obtain ⟨held, greatest⟩ := front_survivors (dominated := maxDominated) (by simp [maxDominated])
    (fun a b => by simp only [maxDominated, decide_eq_false_iff_not, decide_eq_true_eq]; omega)
    (fun a b c => by simp only [maxDominated, decide_eq_true_eq]; omega) h
  exact ⟨held, fun e mem => of_decide_eq_true (greatest e mem)⟩

/-- Settles O44: the front of each queue survives every newer sample of its window (`front_survivors`). -/
theorem frontsAreWindowExtremes : Obligations.FrontsAreWindowExtremes := by
  intro x history some short long q least greatest
  have windowed {n : Nat} (h : 1 ≤ n) : history.take n ≠ [] := by
    rw [ne_eq, List.take_eq_nil_iff]
    exact not_or.2 ⟨by omega, some⟩
  exact ⟨front_minSurvivors (windowed short), front_maxSurvivors (windowed short), front_minSurvivors (windowed long),
    front_maxSurvivors (windowed long)⟩

/-! ### The offers by largest remainder (R37 to R39) -/

theorem ranksBefore_eq (x : Shares) (j i : StationId) :
    x.ranksBefore j i = decide (x.numerator i % x.divisor < x.numerator j % x.divisor ∨
      (x.numerator i % x.divisor = x.numerator j % x.divisor ∧ j.val < i.val)) := by
  rw [Bool.eq_iff_iff]
  simp only [Shares.ranksBefore, Bool.or_eq_true, Bool.and_eq_true, beq_iff_eq, decide_eq_true_eq]
  exact or_congr_right (and_congr_left fun _ => eq_comm)

/-- The offer to a station of the mask where the largest-remainder rule is applied. -/
theorem offer_eq_of_divisor {x : Shares} (h : x.divisor ≠ 0) (mask : StationId → Bool) (i : StationId) :
    x.offer mask i = x.kept i + x.numerator i / x.divisor +
      (if (sumStations fun j => if mask j && decide (x.numerator i % x.divisor < x.numerator j % x.divisor ∨
          (x.numerator i % x.divisor = x.numerator j % x.divisor ∧ j.val < i.val)) then 1 else 0) <
        x.total - sumStations (fun j => if mask j then x.numerator j / x.divisor else 0) then 1 else 0) := by
  simp only [← ranksBefore_eq]
  exact if_neg h

/-- Settles O48: stage 9 divides the allowance in the curtailing case, and what is above the forecast in the headroom
case (`sharesOf`). -/
theorem offersFollowLargestRemainder : Obligations.OffersFollowLargestRemainder := by
  intro stations a fc mask avail spare share sp
  have offered {i : StationId} (online : mask i = true) :
      look (offersOf stations a fc) i = (sharesOf stations a fc).offer mask i :=
    (look_offersOf ..).trans (if_pos online)
  refine ⟨fun i offline => ?_, fun curtailed i online => ?_, fun above some_spare i online => ?_,
    fun above no_spare i online => ?_⟩
  · exact (look_offersOf ..).trans (if_neg (Bool.eq_false_iff.1 offline))
  · rw [offered online, sharesOf, if_pos curtailed]
    exact offer_eq_of_divisor (by dsimp only; omega) mask i
  · rw [offered online, sharesOf, if_neg (by omega)]
    exact offer_eq_of_divisor (Nat.pos_iff_ne_zero.1 some_spare) mask i
  · rw [offered online, sharesOf, if_neg (by omega)]
    exact if_pos no_spare

/-! ### The compliance check and the responsible station (R121, R124, R125) -/

/-- What the best candidate of some stations is (R124): none where there is no candidate, else the one with the largest
excess, the lower port among equals. -/
def BestOf (stations : Vector StationSnap 10) (seen : List StationId) : Option (StationId × Nat) → Prop
  | none => ∀ j ∈ seen, candidateExcess (look stations j) = none
  | some (i, e) => i ∈ seen ∧ candidateExcess (look stations i) = some e ∧
      ∀ j ∈ seen, ∀ y, candidateExcess (look stations j) = some y → y < e ∨ (y = e ∧ i.val ≤ j.val)

/-- One station more, with a port above those seen. -/
theorem BestOf.better {stations : Vector StationSnap 10} {seen : List StationId} {best : Option (StationId × Nat)}
    (h : BestOf stations seen best) {i : StationId} (above : ∀ j ∈ seen, j.val < i.val) :
    BestOf stations (seen ++ [i]) (betterCandidate stations best i) := by
  have split {j : StationId} (mem : j ∈ seen ++ [i]) : j ∈ seen ∨ j = i := by simpa using mem
  cases new : candidateExcess (look stations i) with
  | none =>
    have same : betterCandidate stations best i = best := by simp only [betterCandidate, new]
    rw [same]
    cases best with
    | none => exact fun j mem => (split mem).elim (h j) fun own => own ▸ new
    | some b =>
      obtain ⟨held, excess, most⟩ := h
      refine ⟨List.mem_append_left _ held, excess, fun j mem y value => ?_⟩
      rcases split mem with old | rfl
      · exact most j old y value
      · rw [new] at value
        cases value
  | some x =>
    have last : i ∈ seen ++ [i] := List.mem_append_right _ (List.mem_singleton_self i)
    cases best with
    | none =>
      have same : betterCandidate stations none i = some (i, x) := by simp only [betterCandidate, new]
      rw [same]
      refine ⟨last, new, fun j mem y value => ?_⟩
      rcases split mem with old | rfl
      · rw [h j old] at value
        cases value
      · rw [new, Option.some.injEq] at value
        exact .inr ⟨value.symm, le_rfl⟩
    | some b =>
      obtain ⟨k, z⟩ := b
      obtain ⟨held, excess, most⟩ := h
      by_cases more : z < x
      · have same : betterCandidate stations (some (k, z)) i = some (i, x) := by simp only [betterCandidate, new, more, if_true]
        rw [same]
        refine ⟨last, new, fun j mem y value => ?_⟩
        rcases split mem with old | rfl
        · have := most j old y value
          exact .inl (by omega)
        · rw [new, Option.some.injEq] at value
          exact .inr ⟨value.symm, le_rfl⟩
      · have same : betterCandidate stations (some (k, z)) i = some (k, z) := by simp only [betterCandidate, new, more, if_false]
        rw [same]
        refine ⟨List.mem_append_left _ held, excess, fun j mem y value => ?_⟩
        rcases split mem with old | rfl
        · exact most j old y value
        · rw [new, Option.some.injEq] at value
          have := above k held
          omega

theorem BestOf.foldl {stations : Vector StationSnap 10} {seen is : List StationId} {best : Option (StationId × Nat)}
    (h : BestOf stations seen best) (sorted : (seen ++ is).Pairwise fun j i => j.val < i.val) :
    BestOf stations (seen ++ is) (is.foldl (betterCandidate stations) best) := by
  induction is generalizing seen best with
  | nil => simpa using h
  | cons i is ih =>
    have moved : seen ++ i :: is = seen ++ [i] ++ is := by simp
    have above : ∀ j ∈ seen, j.val < i.val := fun j mem => (List.pairwise_append.1 sorted).2.2 j mem i (List.mem_cons_self ..)
    rw [moved] at sorted ⊢
    exact ih (h.better above) sorted

theorem bestOf_stationIds (stations : Vector StationSnap 10) :
    BestOf stations stationIds (stationIds.foldl (betterCandidate stations) none) :=
  BestOf.foldl (seen := []) (fun _ mem => by cases mem) (by decide)

theorem candidateExcess_eq (e : StationSnap) :
    candidateExcess e = if e.state = .online ∧ e.applied < e.meas then some (e.meas - e.applied) else none := by
  simp only [candidateExcess, Bool.and_eq_true, decide_eq_true_eq]

theorem hardUpward_iff (x : RunResult) : x.hardUpward = true ↔ x.run.params.tolHard < x.ramp.d ∧ 0 < x.ramp.dUp := by
  simp only [RunResult.hardUpward, RunResult.hard, RunResult.upward, Bool.and_eq_true, decide_eq_true_eq]

theorem rampCheck_of_cleared {prev : Published} (h : prev.plant = .none) (p : Nat) :
    rampCheck prev p = { checked := false, lower := 0, upper := 0, dUp := 0, dDn := 0, d := 0 } := if_pos h

theorem rampCheck_of_record {prev : Published} (h : prev.plant ≠ .none) (p : Nat) :
    rampCheck prev p =
      { checked := true, lower := prev.lower, upper := prev.upper, dUp := (p : Int) - prev.upper,
        dDn := (prev.lower : Int) - p, d := (max (max ((p : Int) - prev.upper) ((prev.lower : Int) - p)) 0).toNat } :=
  if_neg h

/-- Settles O49: the responsible station is the best of the ten candidates (`bestOf_stationIds`). -/
theorem rampCheckAndResponsible : Obligations.RampCheckAndResponsible := by
  refine ⟨fun prev p => ⟨fun cleared => ?_, fun recorded => ?_⟩, fun x => ?_⟩
  · rw [rampCheck_of_cleared cleared]
    exact ⟨rfl, rfl, rfl, rfl, rfl, rfl⟩
  · rw [rampCheck_of_record recorded]
    exact ⟨rfl, rfl, rfl, rfl, rfl, Int.toNat_of_nonneg (le_max_right _ _)⟩
  intro candidate excess hardUpward
  have hard : x.hardUpward = true ↔ hardUpward := hardUpward_iff x
  have best := bestOf_stationIds x.run.stations
  have excess_of {j : StationId} (h : candidate j) : candidateExcess (look x.run.stations j) = some (excess j) :=
    (candidateExcess_eq _).trans (if_pos h)
  have frozen (h : hardUpward) : x.freezes = match x.run.params.hardResponse with
      | .report => none
      | .freezePlant => some plantScope
      | .freezeGroup => match x.responsible with
        | some (i, _) => some (groupScope (look x.run.stations i).group)
        | none => some plantScope := if_pos (hard.2 h)
  refine ⟨fun i e found => ?_, fun none_found => ?_, fun soft => ?_, fun upward report => ?_, fun upward plant => ?_,
    fun upward group => ⟨fun i e found => ?_, fun none_found => ?_⟩, rfl⟩
  · by_cases upward : hardUpward
    · rw [RunResult.responsible, if_pos (hard.2 upward)] at found
      rw [found] at best
      obtain ⟨-, value, most⟩ := best
      rw [candidateExcess_eq] at value
      split at value
      · rename_i own
        cases value
        exact ⟨upward, own, rfl, fun j other => most j (mem_stationIds j) _ (excess_of other)⟩
      · cases value
    · rw [RunResult.responsible, if_neg (mt hard.1 upward)] at found
      cases found
  · by_cases upward : hardUpward
    · rw [RunResult.responsible, if_pos (hard.2 upward)] at none_found
      rw [none_found] at best
      refine .inr fun i own => ?_
      have absent := best i (mem_stationIds i)
      rw [excess_of own] at absent
      cases absent
    · exact .inl upward
  · exact if_neg (mt hard.1 soft)
  · rw [frozen upward, report]
  · rw [frozen upward, plant]
  · rw [frozen upward, group, found]
  · rw [frozen upward, group, none_found]

end Sys2Proof.Machine

/-! PROOFS. One firing, one source event, and the accounting step of a publication. -/

namespace Sys2Proof.Machine

/-! ### Firings (R156, R157, R159) -/

theorem isStation_iff_code (k : CauseKind) : k.isStation = true ↔ k.code.val ≤ 2 := by cases k <;> decide

theorem reaches_iff (r : Route) (k : CauseKind) (i : StationId) (p : Port) :
    r.reaches k i p = true ↔
      r.mask.getLsbD p.val = true ∨ (k.code.val ≤ 2 ∧ r.ownPort = true ∧ p = stationPort i) := by
  simp only [Route.reaches, Bool.or_eq_true, Bool.and_eq_true, isStation_iff_code, beq_iff_eq, and_assoc]

theorem fire_settle_entries (x : Router) (k : CauseKind) (i : StationId) (l : Bool) (p : Port) :
    (look (x.fire k i l).settle.sets p).entries =
      if (look x.routes k.code).reaches k i p then
        ((look x.sets p).deliver k i (look x.routes k.code).release l).all else (look x.sets p).all := by
  simp only [Router.settle, Router.fire, look_tabulate, PendingSet.settle]
  split <;> rfl

theorem deliver_of_absent {q : PendingSet} (settled : q.fresh = []) {k : CauseKind} {i : StationId}
    (h : ∀ e ∈ q.entries, e.isFor k i = false) (r : Release) (l : Bool) :
    (q.deliver k i r l).all = q.entries ++ [{ kind := k, inst := i, release := r, count := 1, locked := l }] := by
  have missing : ¬ q.all.any (·.isFor k i) = true := by
    rw [all_of_settled settled, List.any_eq_true]
    rintro ⟨e, mem, own⟩
    exact Bool.false_ne_true ((h e mem).symm.trans own)
  rw [PendingSet.deliver, if_neg missing, settled]
  rfl

theorem deliver_of_present {q : PendingSet} (settled : q.fresh = []) {k : CauseKind} {i : StationId}
    (h : ∃ e ∈ q.entries, e.isFor k i = true) (r : Release) (l : Bool) :
    (q.deliver k i r l).all = q.entries.map (PendingEntry.merge k i l) := by
  have present : q.all.any (·.isFor k i) = true := by
    rw [all_of_settled settled, List.any_eq_true]
    exact h
  rw [PendingSet.deliver, if_pos present, settled, PendingSet.all, List.map_nil, List.append_nil]

/-- Settles O50: a firing is delivered where its route reaches (`reaches_iff`), and merges there into the entry of its
pair if the set has one. -/
theorem firingsMergeAndEnd : Obligations.FiringsMergeAndEnd := by
  intro x k i locked p settled r reached before after mine
  have route : r.reaches k i p = true ↔ reached := reaches_iff r k i p
  have entries : after = _ := fire_settle_entries x k i locked p
  refine ⟨fun apart => ?_, fun hit missing => ?_, fun hit present => ?_, rfl, ?_⟩
  · rw [entries, if_neg (mt route.1 apart)]
    exact all_of_settled settled
  · rw [entries, if_pos (route.2 hit)]
    exact deliver_of_absent settled missing _ _
  · rw [entries, if_pos (route.2 hit)]
    exact deliver_of_present settled present _ _
  · rw [Router.conditionEnded, look_tabulate]
    rfl

/-! ### One source event (R138 to R145) -/

theorem passes_eq (c : Control) (mag : Nat) :
    c.passes mag = if c.invert then decide (mag < c.threshold.toNat) else decide (c.threshold.toNat ≤ mag) := by
  rw [Control.passes]
  cases c.invert with
  | true =>
    rw [Bool.bne_true, ← decide_not]
    exact decide_eq_decide.2 Nat.not_le
  | false => exact Bool.bne_false _

theorem increment_true (m : CountMode) (mag : Nat) : m.increment mag true = if m = .magnitude then mag else 1 := by
  cases m <;> rfl

/-- What an event adds to a counter: nothing unless the counter selects it and its test passes, else by its mode. -/
theorem eventIncrement_eq (c : Counter) (x : StatSource) (mag : Nat) (p : Port) :
    c.eventIncrement x mag p =
      if c.control.enable && c.control.source == x && c.control.mask.getLsbD p.val &&
          (if c.control.invert then decide (mag < c.control.threshold.toNat) else decide (c.control.threshold.toNat ≤ mag))
      then (if c.control.mode = .magnitude then mag else 1) else 0 := by
  rw [Counter.eventIncrement, Control.sees, passes_eq, increment_true]

theorem any_freezesOn_iff {counters : Vector Counter 8} {adds : Fin 8 → Nat} :
    ((List.finRange 8).any fun n => (look counters n).freezesOn (adds n)) = true ↔
      ∃ n, 2 ^ 40 ≤ (look counters n).value.toNat + adds n ∧ (look counters n).control.freezeOnOverflow = true := by
  simp only [List.any_eq_true, List.mem_finRange, true_and, Counter.freezesOn, Counter.wraps, Bool.and_eq_true,
    decide_eq_true_eq]

/-- Settles O51: every counter adds (`eventIncrement_eq`), and a counter with freeze-on-overflow that wraps freezes the
unit. -/
theorem sourceEventsAreCounted : Obligations.SourceEventsAreCounted := by
  intro s x mag p c passes adds wraps counted
  have increment (n : Fin 8) : (c n).eventIncrement x mag p = adds n := eventIncrement_eq ..
  have freezes : ((List.finRange 8).any fun n => (c n).freezesOn ((c n).eventIncrement x mag p)) = true ↔
      ∃ n, wraps n ∧ (c n).control.freezeOnOverflow = true := by
    simp only [increment]
    exact any_freezesOn_iff
  have counts (counting : s.stats.frozen = false) : counted (s.statEvent x mag p) := fun n => by
    rw [(statEvent_of_counting counting ⟨x, mag, p⟩).1 n]
    exact congrArg (Counter.add (c n)) (increment n)
  refine ⟨fun frozen => if_pos frozen, fun counting calm => ⟨counts counting, ?_⟩, fun counting wrapped => ⟨counts counting, ?_⟩⟩
  · have calm : ¬ ((List.finRange 8).any fun n => (c n).freezesOn ((c n).eventIncrement x mag p)) = true := by
      rw [freezes]
      rintro ⟨n, wrapped, own⟩
      exact Bool.false_ne_true ((calm n wrapped).symm.trans own)
    have stepped : s.statEvent x mag p = s.setStats { s.stats with
        counters := tabulate fun n => (c n).add ((c n).eventIncrement x mag p) } :=
      (if_neg (by rw [counting]; decide)).trans (if_neg calm)
    rw [stepped]
    rfl
  · have stepped : s.statEvent x mag p = (s.setStats { s.stats with
        counters := tabulate fun n => (c n).add ((c n).eventIncrement x mag p) }).statFreeze
          { manual := false, overflow := true, hard := false } :=
      (if_neg (by rw [counting]; decide)).trans (if_pos (freezes.2 wrapped))
    simp only [stepped, State.statFreeze, setStats_stats, counting, Bool.false_eq_true, if_false]
    rfl

/-! ### The accounting step of a publication (R141 to R147) -/

/-- The unit's counts after the step, before it is frozen (R141, R142, R146). -/
def Stats.published (st : Stats) (es : RunEvents) (plant : PlantState) (collapsed : Bool) : Stats :=
  { st with
    counters := tabulate fun n =>
      (if st.frozen then look st.counters n
        else (look st.counters n).add ((look st.counters n).runIncrement es)).setEdge es
    residency := if st.frozen then st.residency else residencyAfter st.residency plant collapsed
    runCounter := st.runCounter + 1 }

theorem statPublication_of_frozen {s : State} (h : s.stats.frozen = true) (es : RunEvents) (plant : PlantState)
    (collapsed : Bool) : s.statPublication es plant collapsed = s.setStats (s.stats.published es plant collapsed) := by
  refine if_neg ?_
  rw [h]
  exact Bool.false_ne_true

theorem statPublication_of_counting {s : State} (h : s.stats.frozen = false) (es : RunEvents) (plant : PlantState)
    (collapsed : Bool) :
    let overflow := (List.finRange 8).any fun n =>
      (look s.stats.counters n).freezesOn ((look s.stats.counters n).runIncrement es)
    let hard := s.stats.freezeOnHard && (es.lookup .rampHard).isSome
    let counted := s.stats.published es plant collapsed
    s.statPublication es plant collapsed =
      if overflow || hard then
        (s.setStats { counted with frozen := true, reason := { manual := false, overflow := overflow, hard := hard } }).firePlant
          .statsFreeze
      else s.setStats counted := by
  intro overflow hard counted
  have step : s.statPublication es plant collapsed =
      if !s.stats.frozen && (overflow || hard) then
        (s.setStats counted).statFreeze { manual := false, overflow := overflow, hard := hard }
      else s.setStats counted := rfl
  have froze (why : FreezeReason) : (s.setStats counted).statFreeze why =
      (s.setStats { counted with frozen := true, reason := why }).firePlant .statsFreeze :=
    if_neg (by rw [show (s.setStats counted).stats.frozen = false from h]; decide)
  rw [step, h, froze]
  rfl

theorem setEdge_fields (c : Counter) (es : RunEvents) :
    (c.setEdge es).control = c.control ∧ (c.setEdge es).value = c.value ∧ (c.setEdge es).overflow = c.overflow ∧
      (c.setEdge es).edge = if c.control.enable ∧ c.control.source.code ≤ 9 then c.passedIn es else c.edge := by
  unfold Counter.setEdge
  by_cases run : c.control.enable = true ∧ c.control.source.code ≤ 9
  · have judged : (c.control.enable && c.control.source.isRun) = true :=
      Bool.and_eq_true_iff.2 ⟨run.1, decide_eq_true run.2⟩
    rw [if_pos judged, if_pos run]
    exact ⟨rfl, rfl, rfl, rfl⟩
  · have unjudged : ¬ (c.control.enable && c.control.source.isRun) = true := fun judged =>
      run ⟨(Bool.and_eq_true_iff.1 judged).1, of_decide_eq_true (Bool.and_eq_true_iff.1 judged).2⟩
    rw [if_neg unjudged, if_neg run]
    exact ⟨rfl, rfl, rfl, rfl⟩

/-- What the step makes of one counter: its control stays, its edge flag follows the run, and it adds unless the unit is
frozen. -/
theorem published_counter (st : Stats) (es : RunEvents) (plant : PlantState) (collapsed : Bool) (n : Fin 8) :
    look (st.published es plant collapsed).counters n =
      (if st.frozen then look st.counters n
        else (look st.counters n).add ((look st.counters n).runIncrement es)).setEdge es := look_tabulate ..

theorem passedIn_add (c : Counter) (k : Nat) (es : RunEvents) : (c.add k).passedIn es = c.passedIn es := rfl

theorem published_counter_edge (st : Stats) (es : RunEvents) (plant : PlantState) (collapsed : Bool) (n : Fin 8) :
    (look (st.published es plant collapsed).counters n).edge =
        (if (look st.counters n).control.enable ∧ (look st.counters n).control.source.code ≤ 9
          then (look st.counters n).passedIn es else (look st.counters n).edge) ∧
      (look (st.published es plant collapsed).counters n).control = (look st.counters n).control := by
  rw [published_counter]
  obtain ⟨control, -, -, edge⟩ := setEdge_fields (if st.frozen then look st.counters n
    else (look st.counters n).add ((look st.counters n).runIncrement es)) es
  rw [control, edge]
  cases st.frozen <;> exact ⟨rfl, rfl⟩

/-- What a run adds, by whether its event passed (R140, R142). -/
theorem runIncrement_eq (c : Counter) (es : RunEvents) :
    c.runIncrement es = if c.control.enable && c.passedIn es then
      c.control.mode.increment ((es.lookup c.control.source).getD 0) (!c.edge) else 0 := by
  unfold Counter.runIncrement Counter.passedIn
  cases es.lookup c.control.source with
  | none => exact (if_neg (by rw [Bool.and_false]; decide)).symm
  | some mag => rfl

theorem statPublication_counts (s : State) (es : RunEvents) (plant : PlantState) (collapsed : Bool) :
    (s.statPublication es plant collapsed).stats.counters = (s.stats.published es plant collapsed).counters ∧
    (s.statPublication es plant collapsed).stats.residency = (s.stats.published es plant collapsed).residency ∧
    (s.statPublication es plant collapsed).stats.runCounter = s.stats.runCounter + 1 := by
  cases frozen : s.stats.frozen with
  | true =>
    rw [statPublication_of_frozen frozen]
    exact ⟨rfl, rfl, rfl⟩
  | false =>
    rw [statPublication_of_counting frozen]
    split <;> exact ⟨rfl, rfl, rfl⟩

theorem lookup_eventIf (c : Bool) (x y : StatSource) (mag : Nat) :
    (eventIf c y mag).lookup x = if c = true ∧ x = y then some mag else none := by
  cases c with
  | false => exact (if_neg fun h => Bool.false_ne_true h.1).symm
  | true =>
    simp only [eventIf, if_true, List.lookup_cons, List.lookup_nil, true_and]
    by_cases same : x = y
    · rw [beq_iff_eq.2 same, if_pos same]
    · rw [beq_eq_false_iff_ne.2 same, if_neg same]

/-- The events of a run, source by source. -/
theorem lookup_events (x : RunResult) (source : StatSource) :
    x.events.lookup source = match source with
      | .run => some 0
      | .curtail => if x.record.allowance < x.record.fc then some (x.record.fc - x.record.allowance) else none
      | .absorb => if x.record.plant.absorbs then some (x.record.bPref - x.record.b).toNat else none
      | .support => if x.record.plant.supports then some (x.record.b - x.record.bPref).toNat else none
      | .shortfall => if 0 < x.record.shortfall then some x.record.shortfall else none
      | .excess => if 0 < x.record.excess then some x.record.excess else none
      | .collapse => if x.record.collapsed then some x.record.gap else none
      | .rampSoft => if x.soft then some x.ramp.d else none
      | .rampHard => if x.hard then some x.ramp.d else none
      | .meterFallback => if x.sample.fallback then some 0 else none
      | _ => none := by
  have always : [(StatSource.run, 0)] = eventIf true .run 0 := rfl
  simp only [RunResult.events, always, List.lookup_append, lookup_eventIf]
  cases source <;> simp

theorem occurs_of_lookup {o : Option Nat} {c holds : Prop} [Decidable c] {m : Nat} (h : o = if c then some m else none)
    (same : c ↔ holds) : (holds → o = some m) ∧ (¬ holds → o = none) :=
  ⟨fun here => h.trans (if_pos (same.2 here)), fun gone => h.trans (if_neg (mt same.1 gone))⟩

theorem absorbs_iff (x : PlantState) : x.absorbs = true ↔ x = .absorb ∨ x = .curtail ∨ x = .excess := by
  cases x <;> decide

theorem supports_iff (x : PlantState) : x.supports = true ↔ x = .support ∨ x = .short := by
  cases x <;> decide

theorem residencyAfter_look (v : Vector Nat 7) {plant : PlantState} (h : plant ≠ .none) (collapsed : Bool) (n : Fin 7) :
    look (residencyAfter v plant collapsed) n =
      if n.val = plant.code ∨ (n.val = 6 ∧ collapsed = true) then min 4294967295 (look v n + 1) else look v n := by
  rw [residencyAfter, look_tabulate]
  refine if_congr ?_ rfl rfl
  rw [Bool.or_eq_true, Bool.and_eq_true, Bool.and_eq_true, decide_eq_true_eq, decide_eq_true_eq, bne_iff_ne]
  exact or_congr_left (and_iff_left h)

/-- Settles O52: each counter is judged as it stood (`published_counter`), and the unit freezes when the step is complete
(`statPublication_of_counting`); the events of a run are read source by source (`lookup_events`). -/
theorem publicationIsOneAccountingStep : Obligations.PublicationIsOneAccountingStep := by
  refine ⟨fun s es plant collapsed named => ?_, fun x => ?_⟩
  · intro t c passed adds wraps
    obtain ⟨counters, residency, runCounter⟩ := statPublication_counts s es plant collapsed
    have passed_eq (n : Fin 8) : (c n).passedIn es = passed n := by
      simp only [Counter.passedIn, passed]
      cases es.lookup (c n).control.source with
      | none => rfl
      | some mag => exact passes_eq ..
    have adds_eq (n : Fin 8) : (c n).runIncrement es = adds n := by
      rw [runIncrement_eq, passed_eq]
      refine congrArg (fun k => if (c n).control.enable && passed n then k else 0) ?_
      cases (c n).control.mode <;> cases (c n).edge <;> rfl
    have edges (n : Fin 8) := published_counter_edge s.stats es plant collapsed n
    have step (n : Fin 8) : look t.stats.counters n = (if s.stats.frozen then c n else (c n).add (adds n)).setEdge es := by
      rw [counters, published_counter, ← adds_eq]
    refine ⟨runCounter, fun n => ?_, fun n => ?_, fun frozen => ⟨fun n => ?_, ?_⟩, fun counting => ⟨fun n => ?_, fun n => ?_, ?_⟩⟩
    · rw [counters, (edges n).1, ← passed_eq]
    · rw [counters, (edges n).2]
    · rw [step, if_pos frozen]
      obtain ⟨-, value, overflow, -⟩ := setEdge_fields (c n) es
      exact ⟨value, overflow⟩
    · have stepped : t = _ := statPublication_of_frozen frozen es plant collapsed
      rw [stepped]
      exact ⟨if_pos frozen, frozen, rfl, rfl⟩
    · rw [step, if_neg (by rw [counting]; decide)]
      obtain ⟨-, value, overflow, -⟩ := setEdge_fields ((c n).add (adds n)) es
      exact ⟨value, overflow⟩
    · have counted : t.stats.residency = residencyAfter s.stats.residency plant collapsed :=
        residency.trans (if_neg (by rw [counting]; decide))
      rw [counted]
      exact residencyAfter_look _ named _ n
    · intro overflowed hard
      have stepped : t = _ := statPublication_of_counting counting es plant collapsed
      have overflow : ((List.finRange 8).any fun n => (c n).freezesOn ((c n).runIncrement es)) = true ↔ overflowed := by
        simp only [adds_eq]
        exact any_freezesOn_iff
      have hards : (s.stats.freezeOnHard && (es.lookup .rampHard).isSome) = true ↔ hard := Bool.and_eq_true_iff
      by_cases freezes : overflowed ∨ hard
      · rw [if_pos (Bool.or_eq_true_iff.2 (freezes.imp overflow.2 hards.2))] at stepped
        rw [stepped]
        exact ⟨iff_of_true rfl freezes, fun _ => ⟨congrArg₂ (FreezeReason.mk false)
          (Bool.eq_iff_iff.2 (overflow.trans decide_eq_true_iff.symm)) (Bool.eq_iff_iff.2 (hards.trans decide_eq_true_iff.symm)),
          rfl⟩⟩
      · rw [if_neg fun any => freezes ((Bool.or_eq_true_iff.1 any).imp overflow.1 hards.1)] at stepped
        rw [stepped]
        refine ⟨iff_of_false ?_ freezes, fun froze => absurd froze freezes⟩
        rw [show (s.setStats (s.stats.published es plant collapsed)).stats.frozen = s.stats.frozen from rfl, counting]
        decide
  · have hard : x.hard = true ↔ x.run.params.tolHard < x.ramp.d := decide_eq_true_iff
    have soft : x.soft = true ↔ x.run.params.tolSoft < x.ramp.d := decide_eq_true_iff
    refine ⟨⟨fun _ => lookup_events x .run, fun absurd => absurd.elim trivial⟩,
      occurs_of_lookup (lookup_events x .curtail) .rfl, occurs_of_lookup (lookup_events x .absorb) (absorbs_iff _),
      occurs_of_lookup (lookup_events x .support) (supports_iff _), occurs_of_lookup (lookup_events x .shortfall) .rfl,
      occurs_of_lookup (lookup_events x .excess) .rfl, occurs_of_lookup (lookup_events x .collapse) .rfl,
      occurs_of_lookup (lookup_events x .rampSoft) soft, occurs_of_lookup (lookup_events x .rampHard) hard,
      occurs_of_lookup (lookup_events x .meterFallback) .rfl, fun source port => ?_⟩
    rw [lookup_events]
    cases source with
    | raiseFull | raisePartial | interlockEnd | unpairedApply | staleEntry | faultEntry | frameError | crcError | drop
    | filter0 | filter1 => rfl
    | _ => exact absurd port (by decide)

end Sys2Proof.Machine

/-! PROOFS. What the parts of an event make of one entry, raise-ready aside: the form in which the laws of the entries and
those of the engine's run state are proved. -/

namespace Sys2Proof.Machine

/-! ### A list of source events -/

theorem statEvents_station (s : State) (es : List SourceEvent) (j : StationId) :
    (s.statEvents es).station j = s.station j := by
  induction es generalizing s with
  | nil => rfl
  | cons e es ih => exact (ih _).trans ((statEvent_reads s e.source e.magnitude e.port).2.1 j)

theorem statEvents_act (s : State) (i : StationId) (es : List SourceEvent) : s.Act (s.statEvents es) i es := by
  induction es generalizing s with
  | nil => exact .refl s i
  | cons e es ih => exact (statEvent_act s i e.source e.magnitude e.port).trans (ih _)

theorem statEvents_told (s : State) (es : List SourceEvent) : s.Told (s.statEvents es) := by
  induction es generalizing s with
  | nil => exact .of_same rfl rfl fun _ => ⟨rfl, rfl, rfl⟩
  | cons e es ih =>
    exact (statEvent_told s e.source e.magnitude e.port).trans (ih _) (fun j => .inl (by simp only [statEvent_reads]))
      fun j => .inl (by simp only [statEvent_reads])

/-! ### What becomes of an entry -/

/-- `t` is `s` after an action on station i that left its entry as `e`, raise-ready aside, and raised its flag for an
entry of the Online mask only. -/
structure State.Becomes (s t : State) (i : StationId) (e : Station) : Prop where
  act : ∃ es, s.Act t i es
  entry : t.station i = { e with ready := (t.station i).ready }
  raised : (t.station i).ready = true → (s.station i).ready = true ∨ look s.published.mask i = true

section
variable {s t u : State} {i : StationId} {e e' : Station}

theorem mask_of_readyCondition (h : s.readyCondition i = true) : look s.published.mask i = true := by
  simp only [State.readyCondition, Bool.and_eq_true] at h
  exact h.1.1.1.1.2

theorem State.Becomes.published (h : s.Becomes t i e) : t.published = s.published := h.act.elim fun _ a => a.published
theorem State.Becomes.params (h : s.Becomes t i e) : t.params = s.params := h.act.elim fun _ a => a.params
theorem State.Becomes.halted (h : s.Becomes t i e) : t.halted = s.halted := h.act.elim fun _ a => a.halted

theorem State.Becomes.others (h : s.Becomes t i e) (j : StationId) (other : j ≠ i) : t.station j = s.station j :=
  h.act.elim fun _ a => a.others j other

theorem State.Becomes.refl (s : State) (i : StationId) : s.Becomes s i (s.station i) := ⟨⟨_, .refl s i⟩, rfl, .inl⟩

theorem State.Becomes.trans (h : s.Becomes t i e) (g : t.Becomes u i e') : s.Becomes u i e' where
  act := by
    obtain ⟨es, a⟩ := h.act
    obtain ⟨fs, b⟩ := g.act
    exact ⟨_, a.trans b⟩
  entry := g.entry
  raised up := (g.raised up).elim h.raised fun mask => .inr (h.published ▸ mask)

/-- An action that leaves the flag or finds it anew. -/
theorem State.Act.becomes {es : List SourceEvent} (act : s.Act t i es) {b : Bool}
    (entry : t.station i = { e with ready := b }) (ready : b = (s.station i).ready ∨ b = t.readyCondition i) :
    s.Becomes t i e where
  act := ⟨es, act⟩
  entry := by rw [entry]
  raised up := by
    rw [entry] at up
    have up : b = true := up
    exact ready.imp (fun same => same.symm.trans up) fun found =>
      act.published ▸ mask_of_readyCondition (found.symm.trans up)

theorem updStation_becomes (s : State) (i : StationId) (f : Station → Station)
    (ready : (f (s.station i)).ready = (s.station i).ready) : s.Becomes (s.updStation i f) i (f (s.station i)) :=
  (updStation_act s i f).becomes (b := (s.station i).ready) (by rw [station_updStation, if_pos rfl, ← ready]) (.inl rfl)

theorem setRouter_becomes (s : State) (i : StationId) (x : Router) : s.Becomes (s.setRouter x) i (s.station i) :=
  (setRouter_act s i x).becomes (b := (s.station i).ready) rfl (.inl rfl)

theorem statEvent_becomes (s : State) (i : StationId) (x : StatSource) (m : Nat) (p : Port) :
    s.Becomes (s.statEvent x m p) i (s.station i) :=
  (statEvent_act s i x m p).becomes (b := (s.station i).ready) (by simp only [statEvent_reads]) (.inl rfl)

theorem statEvents_becomes (s : State) (i : StationId) (es : List SourceEvent) :
    s.Becomes (s.statEvents es) i (s.station i) :=
  (statEvents_act s i es).becomes (b := (s.station i).ready) (statEvents_station s es i) (.inl rfl)

theorem evalReady_becomes (s : State) (i : StationId) : s.Becomes (s.evalReady i) i (s.station i) :=
  (evalReady_act s i).becomes (evalReady_station s i) (.inr (readyCondition_evalReady s i).symm)

theorem endRecord_becomes (s : State) (i : StationId) : s.Becomes (s.endRecord i) i (s.station i).worst :=
  (endRecord_act s i).becomes (b := (s.station i).ready)
    (by rw [endRecord_station, ← (worst_keeps (s.station i)).2.1]) (.inl rfl)

theorem cancelInterlock_becomes (s : State) (i : StationId) : s.Becomes (s.cancelInterlock i) i (s.station i).worst := by
  obtain ⟨b, entry, ready⟩ := cancelInterlock_station s i
  exact (cancelInterlock_act s i).becomes entry ready

/-- An entry after a change of its state, raise-ready aside. -/
def Station.enters (e : Station) (new : StationState) : Station := if e.state = new then e else e.moved new

theorem setEntryState_becomes (s : State) (i : StationId) (new : StationState) :
    s.Becomes (s.setEntryState i new) i ((s.station i).enters new) := by
  unfold Station.enters
  split
  · next same =>
    rw [setEntryState_same same]
    exact .refl s i
  · next changed => exact (setEntryState_act s i new).becomes (setEntryState_station changed) (.inr rfl)

/-- What a part makes of an entry does not depend on its flag. -/
def BlindToReady (f : Station → Station) : Prop :=
  ∀ (e : Station) b, f { e with ready := b } = { f e with ready := b }

/-- A part that acts on what another left. -/
theorem State.Becomes.andThen (h : s.Becomes t i e) {f : Station → Station} (blind : BlindToReady f)
    (g : t.Becomes u i (f (t.station i))) : s.Becomes u i (f e) where
  act := (h.trans g).act
  entry := by
    have entry := g.entry
    rw [h.entry, blind] at entry
    exact entry
  raised := (h.trans g).raised

theorem blind_worst : BlindToReady Station.worst := fun e b => by
  rcases opened : e.interlock with _ | r <;> simp only [Station.worst, opened]

theorem blind_enters (new : StationState) : BlindToReady fun e => e.enters new := fun e b => by
  simp only [Station.enters, Station.moved, blind_worst e b]
  by_cases same : e.state = new
  · rw [if_pos same, if_pos same]
  · rw [if_neg same, if_neg same]
    split <;> rfl

theorem blind_marked (mode : MonMode) (ev : MonEvent) : BlindToReady fun e => e.marked mode ev := fun _ _ => rfl

end

end Sys2Proof.Machine

/-! PROOFS. The judgement of an accepted report: the marks it leaves on an entry, the one state change it asks for, and
TELEMETRY. -/

namespace Sys2Proof.Machine

/-! ### What a report's judgement marks -/

/-- The holding set less the monitors that leave at a report. -/
def Station.exitHolding (e : Station) (mode : Monitor → MonMode) (clean : Monitor → Bool) : BitVec 4 :=
  (e.exits mode clean).holding

theorem exits_eq (e : Station) (mode : Monitor → MonMode) (clean : Monitor → Bool) :
    e.exits mode clean = { e with holding := e.exitHolding mode clean } := by
  have one : ∀ (e : Station) (m : Monitor), ∃ h, e.exitOne mode clean m = { e with holding := h } := fun e m => by
    unfold Station.exitOne
    split
    · exact ⟨_, rfl⟩
    · exact ⟨_, rfl⟩
  have all : ∀ (ms : List Monitor) (e : Station), ∃ h, ms.foldl (Station.exitOne mode clean) e = { e with holding := h } := by
    intro ms
    induction ms with
    | nil => exact fun e => ⟨_, rfl⟩
    | cons m ms ih =>
      intro e
      obtain ⟨h, step⟩ := one e m
      obtain ⟨h', rest⟩ := ih (e.exitOne mode clean m)
      exact ⟨h', by rw [List.foldl_cons, rest, step]⟩
  obtain ⟨h, whole⟩ := all allMonitors e
  unfold Station.exitHolding Station.exits
  rw [whole]

theorem exitOne_holding (e : Station) (mode : Monitor → MonMode) (clean : Monitor → Bool) (m m' : Monitor) :
    (e.exitOne mode clean m).holding.getLsbD m'.code =
      (e.holding.getLsbD m'.code && !(decide (m = m') && (mode m == .cycle && clean m))) := by
  unfold Station.exitOne
  by_cases leaves : mode m = .cycle
  · cases clean m <;> cases m <;> cases m' <;> simp [leaves, Station.letGo, Monitor.code]
  · simp [leaves]

/-- Which monitors are left in the holding set at a report (R114). -/
theorem exitHolding_holds (e : Station) (mode : Monitor → MonMode) (clean : Monitor → Bool) (m : Monitor) :
    (e.exitHolding mode clean).getLsbD m.code = (e.holding.getLsbD m.code && !(mode m == .cycle && clean m)) := by
  simp only [Station.exitHolding, Station.exits, allMonitors, List.foldl_cons, List.foldl_nil, exitOne_holding]
  cases m <;> simp

/-- The marks of an event where it happened. -/
def Station.markedIf (e : Station) (happened : Bool) (mode : MonMode) (ev : MonEvent) : Station :=
  if happened then e.marked mode ev else e

theorem markedIf_holds (e : Station) (happened : Bool) (mode : MonMode) (ev : MonEvent) (m : Monitor) :
    (e.markedIf happened mode ev).holding.getLsbD m.code =
      (e.holding.getLsbD m.code || (happened && mode.joins && m == ev.monitor)) := by
  cases happened
  · simp [Station.markedIf]
  · cases mode <;> cases ev <;> cases m <;> simp [Station.markedIf, Station.marked, MonMode.joins, MonEvent.monitor,
      Monitor.code]

theorem markedIf_status (e : Station) (happened : Bool) (mode : MonMode) (ev : MonEvent) (n : Nat) :
    (e.markedIf happened mode ev).statuses.getLsbD n =
      (e.statuses.getLsbD n || (n == ev.code && happened && mode != .off)) := by
  have bit : ((1 <<< ev.code : Nat) : BitVec 8) = BitVec.ofNat 8 (2 ^ ev.code) := by cases ev <;> rfl
  cases happened
  · simp [Station.markedIf]
  · by_cases off : mode = .off
    · simp [Station.markedIf, Station.marked, off]
    · simp only [Station.markedIf, Station.marked, off, if_true, if_false, BitVec.getLsbD_or]
      rw [bit, status_bit]
      simp [beq_eq_decide, bne, off]

/-- The marks of the judgement on an entry (R108, steps 3 and 4): exits, then the two events. -/
def Station.judged (e : Station) (mode : Monitor → MonMode) (clean : Monitor → Bool) (count : Nat) (bad rises : Bool) :
    Station :=
  ((({ e with holding := e.exitHolding mode clean, overshootRun := count } : Station).markedIf bad (mode .plausibility)
    .implausible).markedIf rises (mode .overshoot) .overshoot)

/-- The marks change the statuses, the holding set and the overshoot run alone. -/
theorem judged_eq (e : Station) (mode : Monitor → MonMode) (clean : Monitor → Bool) (count : Nat) (bad rises : Bool) :
    e.judged mode clean count bad rises =
      { e with
        overshootRun := count
        statuses := (e.judged mode clean count bad rises).statuses
        holding := (e.judged mode clean count bad rises).holding } := by
  cases bad <;> cases rises <;> rfl

/-- The overshoot count rises an event (R105). -/
def State.overshoots (s : State) (i : StationId) (r : ReportView) : Bool :=
  decide (0 < overshootCount s i r) && decide (s.params.ovsCount ≤ overshootCount s i r)

/-- The judgement but for its state change (R108, steps 1 to 4). -/
def State.judgeMarks (s : State) (i : StationId) (r : ReportView) : State :=
  ((s.updStation i fun e =>
        { e.exits s.params.monMode (cleanFor s i r) with overshootRun := overshootCount s i r }).judgeEvent
      i (implausible s i r) .implausible).judgeEvent i (s.overshoots i r) .overshoot

/-- The state change a judgement asks for (R108, step 5, and R51): `e` is the entry before it and `m` the marked one. -/
def Station.turn (e m : Station) : Option StationState :=
  if m.holding = 0 then if m.state = .faulted ∧ e.holding ≠ 0 then some .online else none
  else if e.holding = 0 ∧ m.state.canFault = true then some .faulted
  else none

/-- The source event of a judgement's state change: FAULT-ENTRY (R51, R111). -/
def turnEvents (i : StationId) : Option StationState → List SourceEvent
  | some .faulted => [⟨.faultEntry, 0, stationPort i⟩]
  | _ => []

/-- A judgement's state change with its source event. -/
def State.turned (s : State) (i : StationId) : Option StationState → State
  | none => s
  | some new => (s.setEntryState i new).statEvents (turnEvents i (some new))

/-- The judgement of a report is its marks and at most one state change (R108). -/
theorem judgeReport_eq (s : State) (i : StationId) (r : ReportView) :
    s.judgeReport i r =
      (s.judgeMarks i r).turned i ((s.station i).turn ((s.judgeMarks i r).station i)) := by
  have whole : s.judgeReport i r =
      if ((s.judgeMarks i r).station i).holding = 0 then
        if ((s.judgeMarks i r).station i).state = .faulted ∧ (s.station i).holding ≠ 0 then
          (s.judgeMarks i r).setEntryState i .online
        else s.judgeMarks i r
      else if (s.station i).holding = 0 then (s.judgeMarks i r).faultEntry i
      else s.judgeMarks i r := by
    unfold State.judgeReport
    simp only [Bool.and_eq_true, decide_eq_true_eq, Bool.not_eq_true', decide_eq_false_iff_not]
    rfl
  rw [whole]
  generalize s.judgeMarks i r = m
  unfold Station.turn
  by_cases empty : (m.station i).holding = 0
  · rw [if_pos empty, if_pos empty]
    split <;> rfl
  · rw [if_neg empty, if_neg empty]
    by_cases first : (s.station i).holding = 0
    · rw [if_pos first, State.faultEntry]
      by_cases can : (m.station i).state.canFault = true
      · rw [if_pos can, if_pos ⟨first, can⟩]
        rfl
      · rw [if_neg can, if_neg fun both => can both.2]
        rfl
    · rw [if_neg first, if_neg fun both => first both.1]
      rfl

theorem judgeEvent_eq (s : State) (i : StationId) (happened : Bool) (ev : MonEvent) :
    s.judgeEvent i happened ev = if happened then s.marked i ev else s := by
  unfold State.judgeEvent State.marked
  have mode : (s.latchStatus i ev).params = s.params := (latchStatus_act s i ev).params
  simp only [mode]

section
variable (s : State) (i : StationId) (happened : Bool) (ev : MonEvent) (r : ReportView)

theorem judgeEvent_station :
    (s.judgeEvent i happened ev).station i =
      (s.station i).markedIf happened (s.params.monMode ev.monitor) ev := by
  rw [judgeEvent_eq, Station.markedIf]
  split
  · exact marked_station s i ev
  · rfl

theorem judgeEvent_act : s.Act (s.judgeEvent i happened ev) i [] := by
  rw [judgeEvent_eq]
  split
  · exact marked_act s i ev
  · exact .refl s i

theorem judgeEvent_told : s.Told (s.judgeEvent i happened ev) := by
  rw [judgeEvent_eq]
  split
  · exact marked_told s i ev
  · exact .of_same rfl rfl fun _ => ⟨rfl, rfl, rfl⟩

theorem markedIf_keeps (e : Station) (happened : Bool) (mode : MonMode) (ev : MonEvent) :
    (e.markedIf happened mode ev).ready = e.ready ∧ (e.markedIf happened mode ev).state = e.state := by
  cases happened <;> exact ⟨rfl, rfl⟩

theorem judgeEvent_keeps :
    ((s.judgeEvent i happened ev).station i).ready = (s.station i).ready ∧
      ((s.judgeEvent i happened ev).station i).state = (s.station i).state := by
  rw [judgeEvent_station]
  exact markedIf_keeps ..

theorem judgeMarks_act : s.Act (s.judgeMarks i r) i [] :=
  ((updStation_act s i _).trans (judgeEvent_act ..)).trans (judgeEvent_act ..)

theorem judgeMarks_station :
    (s.judgeMarks i r).station i =
      (s.station i).judged s.params.monMode (cleanFor s i r) (overshootCount s i r) (implausible s i r)
        (s.overshoots i r) := by
  unfold State.judgeMarks
  rw [judgeEvent_station, (judgeEvent_act ..).params, judgeEvent_station, station_updStation, if_pos rfl, exits_eq]
  rfl

theorem judgeMarks_told : s.Told (s.judgeMarks i r) := by
  have stored := updStation_act s i fun e =>
    { e.exits s.params.monMode (cleanFor s i r) with overshootRun := overshootCount s i r }
  have first := updStation_told s i (fun e =>
    { e.exits s.params.monMode (cleanFor s i r) with overshootRun := overshootCount s i r })
    (by rw [exits_eq]) (by rw [exits_eq]) (by rw [exits_eq])
  exact (first.join (judgeEvent_told ..) stored (.inr (judgeEvent_keeps ..).1.symm)
    (.inr (congrArg (· == _) (judgeEvent_keeps ..).2.symm))).join (judgeEvent_told ..) (stored.trans (judgeEvent_act ..))
    (.inr (judgeEvent_keeps ..).1.symm) (.inr (congrArg (· == _) (judgeEvent_keeps ..).2.symm))

end

/-! ### The state change of a judgement -/

theorem turn_changes {e m : Station} {new : StationState} (h : e.turn m = some new) :
    m.state ≠ new ∧ (new = .online ∨ new = .faulted) := by
  unfold Station.turn at h
  split at h
  · split at h
    · next left =>
      obtain rfl := Option.some.inj h
      exact ⟨by rw [left.1]; decide, .inl rfl⟩
    · exact absurd h (by simp)
  · split at h
    · next entered =>
      obtain rfl := Option.some.inj h
      refine ⟨fun faulted => ?_, .inr rfl⟩
      rw [faulted] at entered
      exact absurd entered.2 (by decide)
    · exact absurd h (by simp)

/-- An entry after a judgement's state change, raise-ready aside. -/
def Station.turned (e : Station) : Option StationState → Station
  | none => e
  | some new => e.moved new

section
variable {s : State} {i : StationId} {o : Option StationState}
  (changes : ∀ new, o = some new → (s.station i).state ≠ new ∧ (new = .online ∨ new = .faulted))
include changes

theorem turned_station :
    (s.turned i o).station i =
      { (s.station i).turned o with
        ready := if o = none then (s.station i).ready else (s.turned i o).readyCondition i } := by
  cases o with
  | none => rfl
  | some new =>
    have moved := setEntryState_station (changes new rfl).1
    rw [if_neg (by simp), State.turned, ((statEvents_act _ i _).readyCondition (b := _) (statEvents_station ..) rfl rfl
      rfl rfl).symm, statEvents_station, moved]
    rfl

theorem turned_act (closed : (s.station i).interlock = none) : s.Act (s.turned i o) i (turnEvents i o) := by
  cases o with
  | none => exact .refl s i
  | some new =>
    have moved := setEntryState_act s i new
    rw [moveEvents_of_closed (.inr closed)] at moved
    exact moved.trans (statEvents_act ..)

theorem turned_told : s.Told (s.turned i o) := by
  cases o with
  | none => exact .of_same rfl rfl fun _ => ⟨rfl, rfl, rfl⟩
  | some new =>
    have fresh : new ≠ .stale := by
      obtain rfl | rfl := (changes new rfl).2 <;> decide
    exact (setEntryState_told fresh).join (statEvents_told ..) (setEntryState_act ..)
      (.inr (by rw [State.turned, statEvents_station])) (.inr (by rw [State.turned, statEvents_station]))

theorem turned_becomes : s.Becomes (s.turned i o) i ((s.station i).turned o) := by
  cases o with
  | none => exact .refl s i
  | some new =>
    have entered := setEntryState_becomes s i new
    rw [Station.enters, if_neg (changes new rfl).1] at entered
    exact entered.andThen (f := id) (fun _ _ => rfl) (statEvents_becomes ..)

end

section
variable (s : State) (i : StationId) (r : ReportView)

theorem judgeMarks_becomes : s.Becomes (s.judgeMarks i r) i ((s.judgeMarks i r).station i) :=
  (judgeMarks_act s i r).becomes (b := (s.station i).ready)
    (by rw [judgeMarks_station, judged_eq]) (.inl rfl)

/-- The entry after the judgement of a report, raise-ready aside. -/
def State.judgedEntry : Station :=
  ((s.judgeMarks i r).station i).turned ((s.station i).turn ((s.judgeMarks i r).station i))

theorem judgeReport_becomes : s.Becomes (s.judgeReport i r) i (s.judgedEntry i r) := by
  rw [judgeReport_eq]
  exact (judgeMarks_becomes s i r).trans (turned_becomes fun _ => turn_changes)

theorem judgeReport_told : s.Told (s.judgeReport i r) := by
  have kept := judgeMarks_station s i r
  rw [judged_eq] at kept
  rw [judgeReport_eq]
  exact (judgeMarks_told s i r).join (turned_told fun _ => turn_changes) (judgeMarks_act s i r) (.inl (by rw [kept]))
    (.inl (by rw [kept]))

end

/-! ### TELEMETRY -/

/-- What an accepted report writes to an entry (R56). -/
def Station.storeReport (e : Station) (meas stored : Nat) : Station := { e with age := 0, meas := meas, avail := stored }

/-- The state with an accepted report in its entry, before the judgement (R56, R57). -/
def State.reportEntry (s : State) (i : StationId) (meas stored : Nat) : State :=
  (s.updStation i fun e => e.storeReport meas stored).setEntryState i (s.station i).state.reported

/-- The judgement's view of a report (R57). -/
def State.viewOf (s : State) (i : StationId) (meas avail : BitVec 16) : ReportView :=
  { before := (s.station i).state, meas := meas.toNat, avail := min avail.toNat (s.station i).rating,
    sentAvail := avail.toNat }

/-- The state an accepted report leaves. -/
def State.accepted (s : State) (i : StationId) (meas avail : BitVec 16) : State :=
  (s.reportEntry i meas.toNat (min avail.toNat (s.station i).rating)).judgeReport i (s.viewOf i meas avail)

theorem serveTelemetry_of_accepted {s : State} {i : StationId} (h : (s.station i).state ≠ .absent)
    (late : isEarly s.params (s.station i).age = false) (meas avail : BitVec 16) :
    serveTelemetry s i meas avail = reportReply (s.accepted i meas avail) i
      (if min avail.toNat (s.station i).rating < avail.toNat then .okClamped else .ok) := by
  simp only [serveTelemetry, h, late, if_false, Bool.false_eq_true]
  rfl

theorem reported_fresh (x : StationState) : x.reported ≠ .stale := by cases x <;> decide

/-- The entry with an accepted report, before the judgement, raise-ready aside. -/
def Station.reported (e : Station) (meas stored : Nat) : Station :=
  (e.storeReport meas stored).enters e.state.reported

theorem blind_reported (meas stored : Nat) : BlindToReady fun e => e.reported meas stored :=
  fun e b => blind_enters e.state.reported (e.storeReport meas stored) b

/-- STALE ends at a report; the other states keep what they have but JOINING, which becomes ONLINE. -/
theorem reported_eq {e : Station} (meas stored : Nat) :
    e.reported meas stored =
      { e.storeReport meas stored with
        state := e.state.reported
        staleDuration := if e.state = .stale then 0 else e.staleDuration } := by
  cases state : e.state <;>
    simp [Station.reported, Station.enters, Station.moved, Station.storeReport, StationState.reported, state]

theorem reportEntry_becomes (s : State) (i : StationId) (meas stored : Nat) :
    s.Becomes (s.reportEntry i meas stored) i ((s.station i).reported meas stored) :=
  (updStation_becomes s i (fun e => e.storeReport meas stored) rfl).andThen
    (f := fun e => e.enters (s.station i).state.reported) (blind_enters _) (setEntryState_becomes ..)

theorem reportEntry_told (s : State) (i : StationId) (meas stored : Nat) : s.Told (s.reportEntry i meas stored) := by
  have stored' := updStation_told s i (fun e => e.storeReport meas stored) rfl rfl rfl
  exact stored'.join (setEntryState_told (reported_fresh _)) (updStation_act s i _)
    (.inl (by simp [Station.storeReport])) (.inl (by simp [Station.storeReport]))

theorem accepted_becomes (s : State) (i : StationId) (meas avail : BitVec 16) :
    s.Becomes (s.accepted i meas avail) i
      ((s.reportEntry i meas.toNat (min avail.toNat (s.station i).rating)).judgedEntry i (s.viewOf i meas avail)) :=
  (reportEntry_becomes ..).trans (judgeReport_becomes ..)

end Sys2Proof.Machine

/-! PROOFS. An accepted report, as the statement of TELEMETRY has it. -/

namespace Sys2Proof.Machine

/-- The condition of R88 reads five fields of the entry. -/
theorem readyCondition_of_fields {s t : State} {i : StationId} (params : t.params = s.params)
    (published : t.published = s.published) (ramp : t.ramp = s.ramp) (state : (t.station i).state = (s.station i).state)
    (interlock : (t.station i).interlock = (s.station i).interlock) (group : (t.station i).group = (s.station i).group)
    (applied : (t.station i).applied = (s.station i).applied) (rating : (t.station i).rating = (s.station i).rating) :
    t.readyCondition i = s.readyCondition i := by
  unfold State.readyCondition State.raiseFrozen State.liveOffer
  simp only [params, published, ramp, state, interlock, group, applied, rating]

theorem holding_ext {a b : BitVec 4} (h : ∀ m : Monitor, a.getLsbD m.code = b.getLsbD m.code) : a = b := by
  refine BitVec.eq_of_getLsbD_eq fun n below => ?_
  obtain rfl | rfl | rfl | rfl : n = 0 ∨ n = 1 ∨ n = 2 ∨ n = 3 := by omega
  · exact h .window
  · exact h .overshoot
  · exact h .plausibility
  · exact h .interlock

theorem blind_judged (mode : Monitor → MonMode) (clean : Monitor → Bool) (count : Nat) (bad rises : Bool) :
    BlindToReady fun e => e.judged mode clean count bad rises := fun e b => by
  have holding : ({ e with ready := b } : Station).exitHolding mode clean = e.exitHolding mode clean :=
    holding_ext fun m => by rw [exitHolding_holds, exitHolding_holds]
  cases bad <;> cases rises <;> simp only [Station.judged, holding] <;> rfl

section
variable (s : State) (i : StationId) (meas avail : BitVec 16)

/-- The entry of an accepted report with the marks of its judgement, raise-ready aside. -/
def State.markedEntry (meas avail : BitVec 16) : Station :=
  let e := s.station i
  let x := s.params
  let stored := min avail.toNat e.rating
  let above := decide (e.applied + x.ovsTol < meas.toNat)
  let bad := decide (e.rating < avail.toNat ∨ stored + x.plausTol < meas.toNat)
  let count := if (e.state == .online || e.state == .faulted) && above then min 15 (e.overshootRun + 1) else 0
  (e.reported meas.toNat stored).judged x.monMode
    (fun m => match m with
      | .window | .interlock => true
      | .overshoot => !above
      | .plausibility => !bad) count bad (decide (0 < count ∧ x.ovsCount ≤ count))

theorem judgeMarks_reportEntry :
    ((s.reportEntry i meas.toNat (min avail.toNat (s.station i).rating)).judgeMarks i (s.viewOf i meas avail)).station i =
      { s.markedEntry i meas avail with
        ready := ((s.reportEntry i meas.toNat (min avail.toNat (s.station i).rating)).station i).ready } := by
  have became := reportEntry_becomes s i meas.toNat (min avail.toNat (s.station i).rating)
  have params := became.params
  have entry := became.entry
  rw [judgeMarks_station]
  generalize s.reportEntry i meas.toNat (min avail.toNat (s.station i).rating) = m at params entry ⊢
  have kept : (m.station i).applied = (s.station i).applied ∧ (m.station i).rating = (s.station i).rating ∧
      (m.station i).overshootRun = (s.station i).overshootRun := by
    rw [entry, reported_eq]
    exact ⟨rfl, rfl, rfl⟩
  obtain ⟨applied, rating, run⟩ := kept
  have above : aboveCeiling m i (s.viewOf i meas avail) =
      decide ((s.station i).applied + s.params.ovsTol < meas.toNat) := by
    simp only [aboveCeiling, applied, params, State.viewOf]
  have bad : implausible m i (s.viewOf i meas avail) = decide ((s.station i).rating < avail.toNat ∨
      min avail.toNat (s.station i).rating + s.params.plausTol < meas.toNat) := by
    simp only [implausible, rating, params, State.viewOf, Bool.decide_or]
  have count : overshootCount m i (s.viewOf i meas avail) =
      if ((s.station i).state == .online || (s.station i).state == .faulted) &&
        decide ((s.station i).applied + s.params.ovsTol < meas.toNat)
      then min 15 ((s.station i).overshootRun + 1) else 0 := by
    unfold overshootCount
    rw [above, run]
    unfold State.viewOf saturate
    cases (s.station i).state <;> rfl
  have clean : cleanFor m i (s.viewOf i meas avail) = fun x => match x with
      | .window | .interlock => true
      | .overshoot => !decide ((s.station i).applied + s.params.ovsTol < meas.toNat)
      | .plausibility => !decide ((s.station i).rating < avail.toNat ∨
          min avail.toNat (s.station i).rating + s.params.plausTol < meas.toNat) := by
    funext x
    unfold cleanFor
    cases x <;> simp only [above, bad]
  rw [clean, bad, State.overshoots, count, ← Bool.decide_and, params, entry]
  exact blind_judged _ _ _ _ _ ((s.station i).reported meas.toNat (min avail.toNat (s.station i).rating)) _

end

/-- The state an entry has after an accepted report (R51, R56, R108). -/
def reportState (before : StationState) (holding : BitVec 4) : StationState :=
  if before = .parked then .parked else if holding = 0 then .online else .faulted

/-- A judgement asks for a change exactly where the reported state is not the one the new holding set calls for. -/
theorem turn_eq {e m : Station} {before : StationState} (holding : before.followsHolding = true →
    (before = .faulted ↔ e.holding ≠ 0)) (present : before ≠ .absent) (state : m.state = before.reported) :
    e.turn m = if before.reported = reportState before m.holding then none else some (reportState before m.holding) := by
  by_cases parked : before = .parked
  · subst parked
    unfold Station.turn
    split <;> simp [state, StationState.reported, StationState.canFault, reportState]
  have law := holding (by cases before <;> simp_all [StationState.followsHolding])
  have live : before.reported = if e.holding = 0 then .online else .faulted := by
    cases before <;> simp_all [StationState.reported]
  rw [reportState, if_neg parked, Station.turn, state, live]
  by_cases left : m.holding = 0 <;> by_cases held : e.holding = 0 <;>
    simp only [left, held, ne_eq, not_true_eq_false, not_false_eq_true, if_true, if_false, and_self,
      reduceCtorEq, StationState.canFault, Bool.false_eq_true]

theorem turned_state {e m : Station} {before : StationState} (holding : before.followsHolding = true →
    (before = .faulted ↔ e.holding ≠ 0)) (present : before ≠ .absent) (state : m.state = before.reported) :
    (m.turned (e.turn m)).state = reportState before m.holding := by
  rw [turn_eq holding present state]
  split
  · next same => exact state.trans same
  · exact (show (m.moved _).state = _ by unfold Station.moved; rfl)

/-- The change a judgement asks for brings the entry to the state its new holding set calls for. -/
theorem turned_eq {e m : Station} {before : StationState} (holding : before.followsHolding = true →
    (before = .faulted ↔ e.holding ≠ 0)) (present : before ≠ .absent) (state : m.state = before.reported)
    (closed : m.interlock = none) :
    m.turned (e.turn m) = { m with state := reportState before m.holding } := by
  rw [turn_eq holding present state]
  split
  · next same => rw [← same, ← state]; rfl
  · have fresh : m.state ≠ .stale := state ▸ reported_fresh before
    simp only [Station.turned, Station.moved, if_neg fresh, worst_of_none closed, ite_self]

/-- The source event of an accepted report (R51, R111). -/
def reportEvents (i : StationId) (before after : StationState) : List SourceEvent :=
  if after = .faulted ∧ before ≠ .faulted then [⟨.faultEntry, 0, stationPort i⟩] else []

theorem turnEvents_eq {e m : Station} {before : StationState} (i : StationId) (holding : before.followsHolding = true →
    (before = .faulted ↔ e.holding ≠ 0)) (present : before ≠ .absent) (state : m.state = before.reported) :
    turnEvents i (e.turn m) = reportEvents i before (reportState before m.holding) := by
  rw [turn_eq holding present state]
  have lands : reportState before m.holding = .parked ∧ before = .parked ∨
      reportState before m.holding = .online ∨ reportState before m.holding = .faulted := by
    unfold reportState
    split
    · next parked => exact .inl ⟨rfl, parked⟩
    · split
      · exact .inr (.inl rfl)
      · exact .inr (.inr rfl)
  generalize reportState before m.holding = after at lands ⊢
  rcases lands with ⟨rfl, rfl⟩ | rfl | rfl
  · rfl
  · unfold reportEvents
    split <;> rfl
  · revert present
    cases before <;> simp [StationState.reported, turnEvents, reportEvents]

theorem statEvents_reportEvents (s : State) (i : StationId) (before after : StationState) :
    s.statEvents (reportEvents i before after) =
      if after = .faulted ∧ before ≠ .faulted then s.statEvent .faultEntry 0 (stationPort i) else s := by
  unfold reportEvents
  split <;> rfl

theorem reportState_fresh {before : StationState} (holding : BitVec 4) : reportState before holding ≠ .stale := by
  unfold reportState
  split
  · decide
  · split <;> decide

/-! ### Two parts of one event -/

section
variable {s m u t : State} {i : StationId}

theorem readyChange_routes (x : Router) (i : StationId) (before after : Bool) :
    (x.readyChange i before after).routes = x.routes := by
  unfold Router.readyChange
  split
  · rfl
  · split <;> rfl

/-- Two parts that give their notices one after the other: where raise-ready can go back and forth, its notices are
those of both parts. -/
theorem State.Told.twoNotices (h : s.Told m) (g : m.Told u) (i : StationId) (q : Port) :
    u.router.AgreesAt ((s.router.readyChange i (s.station i).ready (m.station i).ready).readyChange i
      (m.station i).ready (u.station i).ready) .raiseReady i q := by
  have heard := (h.hears.trans g.hears).agrees .raiseReady i q
  rw [hears_append] at heard
  refine heard.trans ?_
  refine (hears_flipped_ready ..).trans (readyChange_agrees ?_ (hears_flipped_ready ..) _ _)
  rw [hears_routes, readyChange_routes]

/-- The other notices of two parts, where STALE is not left and entered again. -/
theorem State.Told.bothNotices (h : s.Told m) (g : m.Told u) (i : StationId)
    (stale : ∀ j, ((m.station j).state == .stale) = ((s.station j).state == .stale) ∨
      ((m.station j).state == .stale) = ((u.station j).state == .stale)) (q : Port) : s.Notices u i q :=
  (h.hears.trans g.hears).notices (noticesOf_append h g (by decide) stale i) (noticesOf_append h g (by decide) stale i)
    (noticesOf_append h g (by decide) stale 0) q

theorem State.Told.bothAgreeOff (h : s.Told m) (g : m.Told u) (first : ∀ j, j ≠ i → m.station j = s.station j)
    (second : ∀ j, j ≠ i → u.station j = m.station j) : s.router.AgreesOff u.router (ownPairs i) :=
  (h.agreesOff first).trans (g.agreesOff second)

end

/-! ### The accepted report -/

section
variable (s : State) (i : StationId) (meas avail : BitVec 16)

/-- The flag of an entry with a report, before the judgement. -/
theorem reportEntry_ready (present : (s.station i).state ≠ .absent) (stored : Nat) :
    ((s.reportEntry i meas.toNat stored).station i).ready =
      if (s.station i).state = .joining ∨ (s.station i).state = .stale then
        (s.updStation i fun e => { e with age := 0, meas := meas.toNat, avail := stored, state := .online }).readyCondition i
      else (s.station i).ready := by
  have here : (s.updStation i fun e => e.storeReport meas.toNat stored).station i =
      (s.station i).storeReport meas.toNat stored := by
    rw [station_updStation, if_pos rfl]
  have same : ((s.station i).storeReport meas.toNat stored).state = (s.station i).state := rfl
  split
  · next returns =>
    have online : (s.station i).state.reported = .online := by
      rcases returns with state | state <;> rw [state] <;> rfl
    have changed : ((s.updStation i fun e => e.storeReport meas.toNat stored).station i).state ≠
        (s.station i).state.reported := by
      rw [here, same, online]
      rcases returns with state | state <;> rw [state] <;> decide
    have closing : (s.station i).state ≠ .online := by
      rcases returns with state | state <;> rw [state] <;> decide
    have moved := setEntryState_station changed
    rw [State.reportEntry, moved]
    refine readyCondition_of_fields (setEntryState_act ..).params (setEntryState_act ..).published
      (setEntryState_act ..).ramp ?_ ?_ ?_ ?_ ?_ <;>
      rw [moved, here, station_updStation, if_pos rfl] <;> simp [Station.moved, Station.storeReport, closing, online]
  · next stays =>
    have kept : (s.station i).state.reported = (s.station i).state := by
      revert present stays
      cases (s.station i).state <;> simp [StationState.reported]
    rw [State.reportEntry, setEntryState_same (by rw [here, same, kept]), here]
    rfl

/-- The marks of a judgement on the entry with the report, the fields that other parts read. -/
theorem markedEntry_keeps :
    (s.markedEntry i meas avail).state = (s.station i).state.reported ∧
      (s.markedEntry i meas avail).interlock = (s.station i).interlock ∧
      (s.markedEntry i meas avail).group = (s.station i).group ∧
      (s.markedEntry i meas avail).applied = (s.station i).applied ∧
      (s.markedEntry i meas avail).rating = (s.station i).rating := by
  unfold State.markedEntry
  rw [judged_eq, reported_eq]
  exact ⟨rfl, rfl, rfl, rfl, rfl⟩

/-- A state that no judgement changes is the reported one; JOINING and STALE are never kept. -/
theorem reportState_kept {before : StationState} (present : before ≠ .absent) (holding : BitVec 4)
    (h : reportState before holding = before) : ¬ (before = .joining ∨ before = .stale) ∧ before.reported = before := by
  revert present h
  unfold reportState
  cases before <;> split <;> simp [StationState.reported] <;> split <;> simp

theorem reportState_left {before : StationState} {holding : BitVec 4} (present : before ≠ .absent)
    (same : before.reported = reportState before holding) (h : reportState before holding ≠ before) :
    before = .joining ∨ before = .stale := by
  rw [← same] at h
  revert present h
  cases before <;> simp [StationState.reported]

/-- The entry an accepted report leaves (R51, R56, R88, R108). -/
theorem accepted_station (wf : (s.station i).Wf) (present : (s.station i).state ≠ .absent)
    (closed : (s.station i).interlock = none) :
    (s.accepted i meas avail).station i =
      { s.markedEntry i meas avail with
        state := reportState (s.station i).state (s.markedEntry i meas avail).holding
        ready :=
          if reportState (s.station i).state (s.markedEntry i meas avail).holding = (s.station i).state
          then (s.station i).ready else (s.accepted i meas avail).readyCondition i } := by
  have became := reportEntry_becomes s i meas.toNat (min avail.toNat (s.station i).rating)
  have held : ((s.reportEntry i meas.toNat (min avail.toNat (s.station i).rating)).station i).holding =
      (s.station i).holding := by
    rw [became.entry, reported_eq]
    rfl
  have ready := reportEntry_ready s i meas present (min avail.toNat (s.station i).rating)
  have marks := judgeMarks_reportEntry s i meas avail
  have act := judgeMarks_act (s.reportEntry i meas.toNat (min avail.toNat (s.station i).rating)) i (s.viewOf i meas avail)
  obtain ⟨state, interlock, group, applied, rating⟩ := markedEntry_keeps s i meas avail
  rw [State.accepted, judgeReport_eq]
  generalize s.reportEntry i meas.toNat (min avail.toNat (s.station i).rating) = m at became held ready marks act ⊢
  generalize m.judgeMarks i (s.viewOf i meas avail) = k at marks act ⊢
  have law : (s.station i).state.followsHolding = true →
      ((s.station i).state = .faulted ↔ (m.station i).holding ≠ 0) := by
    rw [held]
    exact wf.faulted
  have marked : (k.station i).state = (s.station i).state.reported := by rw [marks]; exact state
  have turned := turned_eq (e := m.station i) (m := k.station i) law present marked
    (by rw [marks]; exact interlock.trans closed)
  have unturned : (m.station i).turn (k.station i) = none ↔
      (s.station i).state.reported = reportState (s.station i).state (k.station i).holding := by
    rw [turn_eq law present marked]
    split <;> simp_all
  have settled := turned_station (s := k) (i := i) (o := (m.station i).turn (k.station i)) fun _ => turn_changes
  rw [settled, turned]
  have flag : (if (m.station i).turn (k.station i) = none then (k.station i).ready
        else (k.turned i ((m.station i).turn (k.station i))).readyCondition i) =
      if reportState (s.station i).state (s.markedEntry i meas avail).holding = (s.station i).state
      then (s.station i).ready
      else (k.turned i ((m.station i).turn (k.station i))).readyCondition i := by
    have kept : (k.station i).holding = (s.markedEntry i meas avail).holding := by rw [marks]
    rw [kept] at unturned
    have carried : (k.station i).ready = (m.station i).ready := by rw [marks]
    by_cases none : (m.station i).turn (k.station i) = .none
    · rw [if_pos none, none, carried, ready]
      by_cases same : reportState (s.station i).state (s.markedEntry i meas avail).holding = (s.station i).state
      · rw [if_pos same, if_neg (reportState_kept present _ same).1]
      · have returns := reportState_left present (unturned.1 none) same
        have online : (s.station i).state.reported = .online := by
          rcases returns with before | before <;> rw [before] <;> rfl
        rw [if_neg same, if_pos returns]
        symm
        refine readyCondition_of_fields (act.params.trans became.params) (act.published.trans became.published)
          (act.ramp.trans (became.act.elim fun _ a => a.ramp)) ?_ ?_ ?_ ?_ ?_ <;>
          rw [station_updStation, if_pos rfl, State.turned, marks]
        · exact state.trans online
        · exact interlock
        · exact group
        · exact applied
        · exact rating
    · have changes : reportState (s.station i).state (s.markedEntry i meas avail).holding ≠ (s.station i).state :=
        fun same => none (unturned.2 ((reportState_kept present _ same).2.trans same.symm))
      rw [if_neg none, if_neg changes]
  rw [flag, marks]

theorem accepted_act (wf : (s.station i).Wf) (present : (s.station i).state ≠ .absent)
    (closed : (s.station i).interlock = none) :
    s.Act (s.accepted i meas avail) i
      (reportEvents i (s.station i).state (reportState (s.station i).state (s.markedEntry i meas avail).holding)) := by
  have became := reportEntry_becomes s i meas.toNat (min avail.toNat (s.station i).rating)
  have stored := (updStation_act s i fun e => e.storeReport meas.toNat (min avail.toNat (s.station i).rating)).trans
    (setEntryState_act _ i (s.station i).state.reported)
  have quiet : ((s.updStation i fun e => e.storeReport meas.toNat (min avail.toNat (s.station i).rating)).station
      i).moveEvents (s.station i).state.reported i = [] :=
    moveEvents_of_closed (.inr (by rw [station_updStation, if_pos rfl]; exact closed)) _ _
  rw [quiet] at stored
  have held : ((s.reportEntry i meas.toNat (min avail.toNat (s.station i).rating)).station i).holding =
      (s.station i).holding := by
    rw [became.entry, reported_eq]
    rfl
  have marks := judgeMarks_reportEntry s i meas avail
  have act := judgeMarks_act (s.reportEntry i meas.toNat (min avail.toNat (s.station i).rating)) i (s.viewOf i meas avail)
  obtain ⟨state, interlock, -⟩ := markedEntry_keeps s i meas avail
  rw [State.accepted, judgeReport_eq]
  change s.Act (s.reportEntry i meas.toNat (min avail.toNat (s.station i).rating)) i _ at stored
  generalize s.reportEntry i meas.toNat (min avail.toNat (s.station i).rating) = m at held marks act stored ⊢
  generalize m.judgeMarks i (s.viewOf i meas avail) = k at marks act ⊢
  have closed' : (k.station i).interlock = none := by
    rw [marks]
    exact interlock.trans closed
  have events := turnEvents_eq (e := m.station i) (m := k.station i) i (by rw [held]; exact wf.faulted) present
    (by rw [marks]; exact state)
  rw [show (s.markedEntry i meas avail).holding = (k.station i).holding by rw [marks], ← events]
  exact (stored.trans act).trans (turned_act (fun _ => turn_changes) closed')

end

/-- The fields of an entry with the marks of an accepted report (R56, R57, R105). -/
theorem markedEntry_eq (s : State) (i : StationId) (meas avail : BitVec 16) (wf : (s.station i).Wf) :
    s.markedEntry i meas avail =
      { s.station i with
        age := 0, meas := meas.toNat, avail := min avail.toNat (s.station i).rating
        state := (s.station i).state.reported, staleDuration := 0
        overshootRun :=
          if ((s.station i).state == .online || (s.station i).state == .faulted) &&
            decide ((s.station i).applied + s.params.ovsTol < meas.toNat)
          then min 15 ((s.station i).overshootRun + 1) else 0
        statuses := (s.markedEntry i meas avail).statuses, holding := (s.markedEntry i meas avail).holding } := by
  have fresh : (if (s.station i).state = .stale then 0 else (s.station i).staleDuration) = 0 := by
    split
    · rfl
    · next other => exact wf.fresh other
  have whole := judged_eq ((s.station i).reported meas.toNat (min avail.toNat (s.station i).rating)) s.params.monMode
  unfold State.markedEntry
  rw [whole, reported_eq, fresh]
  rfl

theorem accepted_entry {s : State} {i : StationId} (meas avail : BitVec 16) (wf : (s.station i).Wf)
    (present : (s.station i).state ≠ .absent) (closed : (s.station i).interlock = none) :
    (s.accepted i meas avail).station i =
      { s.station i with
        age := 0, meas := meas.toNat, avail := min avail.toNat (s.station i).rating
        state := reportState (s.station i).state (s.markedEntry i meas avail).holding, staleDuration := 0
        overshootRun :=
          if ((s.station i).state == .online || (s.station i).state == .faulted) &&
            decide ((s.station i).applied + s.params.ovsTol < meas.toNat)
          then min 15 ((s.station i).overshootRun + 1) else 0
        statuses := (s.markedEntry i meas avail).statuses, holding := (s.markedEntry i meas avail).holding
        ready :=
          if reportState (s.station i).state (s.markedEntry i meas avail).holding = (s.station i).state
          then (s.station i).ready else (s.accepted i meas avail).readyCondition i } :=
  (accepted_station s i meas avail wf present closed).trans <|
    congrArg (fun m : Station =>
      { m with
        state := reportState (s.station i).state (s.markedEntry i meas avail).holding
        ready :=
          if reportState (s.station i).state (s.markedEntry i meas avail).holding = (s.station i).state
          then (s.station i).ready else (s.accepted i meas avail).readyCondition i })
      (markedEntry_eq s i meas avail wf)

/-- What the statement says of the holding set and the statuses after a report (R108, R110, R114). -/
theorem markedEntry_marks (s : State) (i : StationId) (meas avail : BitVec 16) :
    let e := s.station i
    let x := s.params
    let stored := min avail.toNat e.rating
    let bad : Bool := decide (e.rating < avail.toNat ∨ stored + x.plausTol < meas.toNat)
    let above : Bool := decide (e.applied + x.ovsTol < meas.toNat)
    let compared : Bool := e.state == .online || e.state == .faulted
    let count := if compared && above then min 15 (e.overshootRun + 1) else 0
    let rises : Bool := decide (0 < count ∧ x.ovsCount ≤ count)
    let joins (m : MonMode) : Bool := m == .latched || m == .cycle
    let holds (n : Nat) (mode : MonMode) (clean event : Bool) : Bool :=
      (e.holding.getLsbD n && !(mode == .cycle && clean)) || (event && joins mode)
    ((s.markedEntry i meas avail).holding.getLsbD 0 = holds 0 x.monWindow true false ∧
      (s.markedEntry i meas avail).holding.getLsbD 1 = holds 1 x.monOvershoot (!above) rises ∧
      (s.markedEntry i meas avail).holding.getLsbD 2 = holds 2 x.monPlausibility (!bad) bad ∧
      (s.markedEntry i meas avail).holding.getLsbD 3 = holds 3 x.monInterlock true false) ∧
    ∀ n, (s.markedEntry i meas avail).statuses.getLsbD n = (e.statuses.getLsbD n ||
      (n == 2 && rises && x.monOvershoot != .off) || (n == 4 && bad && x.monPlausibility != .off)) := by
  intro e x stored bad above compared count rises joins holds
  have joined : ∀ m : MonMode, m.joins = joins m := fun m => by cases m <;> rfl
  let clean : Monitor → Bool := fun m => match m with
    | .window | .interlock => true
    | .overshoot => !above
    | .plausibility => !bad
  have held : ∀ m : Monitor, (s.markedEntry i meas avail).holding.getLsbD m.code =
      ((e.holding.getLsbD m.code && !(x.monMode m == .cycle && clean m) ||
        (bad && (x.monMode .plausibility).joins && decide (m = .plausibility))) ||
          (rises && (x.monMode .overshoot).joins && decide (m = .overshoot))) := fun m => by
    unfold State.markedEntry Station.judged
    rw [markedIf_holds, markedIf_holds, exitHolding_holds, reported_eq]
    rfl
  refine ⟨⟨(held .window).trans ?_, (held .overshoot).trans ?_, (held .plausibility).trans ?_,
    (held .interlock).trans ?_⟩, fun n => ?_⟩
  · simp [holds, clean, Monitor.code, Params.monMode]
  · simp [holds, clean, joined, Monitor.code, Params.monMode]
  · simp [holds, clean, joined, Monitor.code, Params.monMode]
  · simp [holds, clean, Monitor.code, Params.monMode]
  · have set : (s.markedEntry i meas avail).statuses.getLsbD n =
        ((e.statuses.getLsbD n || (n == 4 && bad && x.monPlausibility != .off)) ||
          (n == 2 && rises && x.monOvershoot != .off)) := by
      unfold State.markedEntry Station.judged
      rw [markedIf_status, markedIf_status, reported_eq]
      rfl
    rw [set, Bool.or_right_comm]

theorem accepted_told (s : State) (i : StationId) (meas avail : BitVec 16) :
    ((s.reportEntry i meas.toNat (min avail.toNat (s.station i).rating)).Told (s.accepted i meas avail)) :=
  judgeReport_told ..

/-- Settles O14: the report is stored (`reportEntry_becomes`), judged (`judgeReport_eq`) and makes at most one state
change (`accepted_station`); raise-ready follows the two parts one after the other (`State.Told.twoNotices`). -/
theorem telemetryAccepted : Obligations.TelemetryAccepted := by
  intro s i tag meas avail h wf present late p e x stored bad above compared count rises joins holds
  have closed : (s.station i).interlock = none := closed_of_serves h
  have timely : isEarly s.params (s.station i).age = false := by
    simp only [isEarly, Bool.and_eq_false_iff, decide_eq_false_iff_not]
    omega
  have unbroken := takingEnds_of_unlocked (s := s.nextEvent) h.unlocked (.telemetry meas avail)
  have served : serveBody s.nextEvent p { tag := tag, body := .telemetry meas avail } =
      answered (serveTelemetry s.nextEvent i meas avail) := by
    simp only [serveBody, p, roleOf_stationPort]
  rw [serveTelemetry_of_accepted (s := s.nextEvent) present timely] at served
  obtain ⟨t, arrived, same, station, ready, stats, router⟩ := exec_of_action h.listening (c := .telemetry p tag meas avail)
    rfl unbroken served (by simp) (accepted_act s.nextEvent i meas avail wf present closed)
  have left := station.trans (accepted_entry (s := s.nextEvent) meas avail wf present closed)
  obtain ⟨held, set⟩ := markedEntry_marks s i meas avail
  have holding : (t.station i).holding = (s.markedEntry i meas avail).holding := by rw [left]; rfl
  have statuses : (t.station i).statuses = (s.markedEntry i meas avail).statuses := by rw [left]; rfl
  have state : (t.station i).state = reportState e.state (s.markedEntry i meas avail).holding := by rw [left]; rfl
  have age : (t.station i).age = 0 := by rw [left]
  have kept : (t.station i).avail = stored := by rw [left]; rfl
  have first : s.Told (s.nextEvent.reportEntry i meas.toNat stored) :=
    (reportEntry_told s.nextEvent i meas.toNat stored).of_nextEvent
  have second : (s.nextEvent.reportEntry i meas.toNat stored).Told (s.nextEvent.accepted i meas avail) := judgeReport_told ..
  have became := reportEntry_becomes s.nextEvent i meas.toNat stored
  have agrees : ∀ q k j, t.router.AgreesAt (s.nextEvent.accepted i meas avail).router k j q :=
    fun q k j => router ▸ settle_agrees _ k j q
  have fresh : ∀ j, (((s.nextEvent.reportEntry i meas.toNat stored).station j).state == .stale) =
        ((s.station j).state == .stale) ∨
      (((s.nextEvent.reportEntry i meas.toNat stored).station j).state == .stale) =
        (((s.nextEvent.accepted i meas avail).station j).state == .stale) := fun j => by
    by_cases own : j = i
    · subst own
      refine .inr ?_
      rw [← station, state, beq_eq_false_iff_ne.2 (reportState_fresh _), became.entry, reported_eq]
      exact beq_eq_false_iff_ne.2 (reported_fresh _)
    · exact .inl (by rw [became.others j own]; rfl)
  refine ⟨t, arrived, ?_, ?_, ?_, ?_, ?_, ?_, fun q => ?_, fun q => ?_⟩
  · refine same.trans ?_
    rw [← station]
    dsimp only
    rw [age, kept]
    rfl
  · refine left.trans ?_
    rw [state, holding, statuses, ready]
    rfl
  · rw [holding]
    exact held
  · rw [statuses]
    exact set
  · rw [stats, (accepted_act s.nextEvent i meas avail wf present closed).stats_of_nextEvent, state]
    exact congrArg State.stats (statEvents_reportEvents s i _ _)
  · rw [router]
    exact ((first.bothAgreeOff second became.others (judgeReport_becomes ..).others).trans
      (settle_agreesOff ..)).differsOnly h.listening.quiet.settled fun q => endEvent_settled _ q
  · exact (first.bothNotices second i fresh q).congr (agrees q) (by rw [station]; exact ⟨rfl, rfl⟩) stats
  · have heard := first.twoNotices second i q
    rw [← station] at heard
    exact (agrees q _ _).trans (reportEntry_ready s.nextEvent i meas present stored ▸ heard)

end Sys2Proof.Machine

/-! PROOFS. The laws of a station entry: what the parts of the events make of one entry keeps them. -/

namespace Sys2Proof.Machine

/-! ### The laws of an entry that do not tie its state to its holding set -/

/-- The part of `Station.Wf` that holds in the middle of an event too. -/
structure Station.Sound (e : Station) : Prop where
  ratingRange : e.rating ≤ 65535
  appliedBound : e.applied ≤ e.rating
  availBound : e.avail ≤ e.rating
  parkBound : ∀ c, e.park = some c → c ≤ e.rating
  interlocked : ∀ r, e.interlock = some r →
    e.state = .online ∧ r.granted ≤ e.rating ∧ r.reserved = r.granted - e.applied
  fresh : e.state ≠ .stale → e.staleDuration = 0
  ranges : e.age ≤ 255 ∧ e.overshootRun ≤ 15 ∧ e.staleDuration ≤ 255

section
variable {e : Station}

theorem Station.Wf.sound (h : e.Wf) : e.Sound :=
  ⟨h.ratingRange, h.appliedBound, h.availBound, h.parkBound, h.interlocked, h.fresh, h.ranges⟩

theorem Station.Sound.wf (h : e.Sound) (parked : e.park.isSome = true ↔ e.state = .parked)
    (faulted : e.state.followsHolding = true → (e.state = .faulted ↔ e.holding ≠ 0))
    (absent : e.state = .absent → e.meas = 0 ∧ e.avail = 0 ∧ e.applied = 0 ∧ e.age = 0) : e.Wf :=
  ⟨h.ratingRange, h.appliedBound, h.availBound, parked, h.parkBound, h.interlocked, faulted, h.fresh, absent, h.ranges⟩

/-- The laws do not read raise-ready. -/
theorem wf_ready (e : Station) (b : Bool) : ({ e with ready := b } : Station).Wf ↔ e.Wf :=
  ⟨fun h => ⟨h.1, h.2, h.3, h.4, h.5, h.6, h.7, h.8, h.9, h.10⟩, fun h => ⟨h.1, h.2, h.3, h.4, h.5, h.6, h.7, h.8, h.9, h.10⟩⟩

theorem Station.Sound.closed (h : e.Sound) (other : e.state ≠ .online) : e.interlock = none := by
  cases opened : e.interlock with
  | none => rfl
  | some r => exact absurd (h.interlocked r opened).1 other

theorem Station.Sound.worst (h : e.Sound) : e.worst.Sound := by
  cases opened : e.interlock with
  | none => rwa [worst_of_none opened]
  | some r =>
    rw [worst_of_some opened]
    exact
      { h with
        appliedBound := max_le h.appliedBound (h.interlocked r opened).2.1
        interlocked := fun _ none => by cases none }

theorem Station.Sound.moved (h : e.Sound) (new : StationState) : (e.moved new).Sound := by
  have stay : (if e.state = .stale then 0 else e.staleDuration) = 0 := by
    split
    · rfl
    · next other => exact h.fresh other
  unfold Station.moved
  rw [stay]
  split
  · exact
      { h.worst with
        interlocked := fun _ opened => by rw [worst_interlock] at opened; cases opened
        fresh := fun _ => rfl
        ranges := ⟨h.worst.ranges.1, h.worst.ranges.2.1, Nat.zero_le _⟩ }
  · next other =>
    exact
      { h with
        interlocked := fun _ opened => by rw [h.closed other] at opened; cases opened
        fresh := fun _ => rfl
        ranges := ⟨h.ranges.1, h.ranges.2.1, Nat.zero_le _⟩ }

/-- What a change of state leaves of the fields that tie it to the others. -/
theorem moved_keeps (e : Station) (new : StationState) :
    (e.moved new).state = new ∧ (e.moved new).park = e.park ∧ (e.moved new).holding = e.holding ∧
      (e.moved new).meas = e.meas ∧ (e.moved new).avail = e.avail ∧ (e.moved new).age = e.age ∧
      (e.moved new).rating = e.rating := by
  unfold Station.moved Station.worst
  split
  · split <;> exact ⟨rfl, rfl, rfl, rfl, rfl, rfl, rfl⟩
  · exact ⟨rfl, rfl, rfl, rfl, rfl, rfl, rfl⟩

theorem Station.Wf.unparked (h : e.Wf) (other : e.state ≠ .parked) : e.park = none := by
  cases ceiling : e.park with
  | none => rfl
  | some c => exact absurd (h.parked.1 (by rw [ceiling]; rfl)) other

/-- A change to a live state that the holding set calls for. -/
theorem Station.Sound.movedLive (h : e.Sound) (unparked : e.park = none) {new : StationState}
    (live : new ≠ .parked ∧ new ≠ .absent) (holding : new = .faulted ↔ e.holding ≠ 0) : (e.moved new).Wf := by
  obtain ⟨state, park, held, -⟩ := moved_keeps e new
  refine (h.moved new).wf ?_ ?_ ?_
  · rw [park, unparked, state]
    exact iff_of_false (by simp) live.1
  · rw [state, held]
    exact fun _ => holding
  · rw [state]
    exact fun absent => absurd absent live.2

theorem Station.Wf.worst (h : e.Wf) : e.worst.Wf := by
  cases opened : e.interlock with
  | none => rwa [worst_of_none opened]
  | some r =>
    have whole := h.sound.worst
    have online := (h.interlocked r opened).1
    rw [worst_of_some opened] at whole ⊢
    exact whole.wf h.parked h.faulted fun absent => absurd (online.symm.trans absent) (by decide)

/-! ### Monitor events -/

/-- An entry after an event of a monitor, raise-ready aside (R109 to R111). -/
def Station.onEvent (e : Station) (mode : MonMode) (ev : MonEvent) : Station :=
  if e.wouldFault mode then (e.marked mode ev).moved .faulted else e.marked mode ev

theorem marked_sound (h : e.Sound) (mode : MonMode) (ev : MonEvent) : (e.marked mode ev).Sound :=
  ⟨h.ratingRange, h.appliedBound, h.availBound, h.parkBound, h.interlocked, h.fresh, h.ranges⟩

theorem marked_holding {mode : MonMode} (h : mode.joins = true) (e : Station) (ev : MonEvent) :
    (e.marked mode ev).holding ≠ 0 := fun none => by
  have bit := markedIf_holds e true mode ev ev.monitor
  rw [Station.markedIf, if_pos rfl, none, h] at bit
  simp at bit

theorem marked_holding_of_not_joins {mode : MonMode} (h : mode.joins = false) (e : Station) (ev : MonEvent) :
    (e.marked mode ev).holding = e.holding := by
  cases mode with
  | off | warn => rfl
  | latched | cycle => cases h

theorem wouldFault_joins {mode : MonMode} (h : e.wouldFault mode = true) :
    mode.joins = true ∧ (e.state = .joining ∨ e.state = .online ∨ e.state = .stale) := by
  simp only [Station.wouldFault, Bool.and_eq_true, Bool.or_eq_true, beq_iff_eq] at h
  obtain ⟨⟨mode, -⟩, state⟩ := h
  exact ⟨(joins_iff _).2 mode, or_assoc.1 state⟩

theorem Station.Wf.onEvent (h : e.Wf) (mode : MonMode) (ev : MonEvent) : (e.onEvent mode ev).Wf := by
  unfold Station.onEvent
  split
  · next fault =>
    obtain ⟨joins, state⟩ := wouldFault_joins fault
    refine (marked_sound h.sound mode ev).movedLive (h.unparked ?_) (by decide) (iff_of_true rfl (marked_holding joins e ev))
    rcases state with state | state | state <;> rw [state] <;> decide
  · next calm =>
    refine (marked_sound h.sound mode ev).wf h.parked (fun live => ?_) h.absent
    cases joins : mode.joins with
    | false =>
      rw [marked_holding_of_not_joins joins]
      exact h.faulted live
    | true =>
      refine iff_of_true ?_ (marked_holding joins e ev)
      by_contra other
      have empty : e.holding = 0 := not_not.1 (mt (h.faulted live).2 other)
      refine calm ?_
      simp only [Station.wouldFault, Bool.and_eq_true, Bool.or_eq_true, beq_iff_eq]
      refine ⟨⟨(joins_iff _).1 joins, empty⟩, ?_⟩
      change e.state.followsHolding = true at live
      change e.state ≠ .faulted at other
      revert live other
      cases e.state <;> simp [StationState.followsHolding]

end

theorem monitorEvent_becomes (s : State) (i : StationId) (ev : MonEvent) :
    s.Becomes (s.monitorEvent i ev) i ((s.station i).onEvent (s.params.monMode ev.monitor) ev) := by
  have marks : s.Becomes (s.marked i ev) i ((s.station i).marked (s.params.monMode ev.monitor) ev) :=
    (marked_act s i ev).becomes (b := (s.station i).ready) (marked_station s i ev) (.inl rfl)
  rw [monitorEvent_eq, Station.onEvent]
  split
  · next fault =>
    have changed := (marked_wouldFault ev fault).1
    have entered := marks.andThen (blind_enters .faulted) (setEntryState_becomes (s.marked i ev) i .faulted)
    rw [Station.enters, if_neg changed] at entered
    exact entered.andThen (f := id) (fun _ _ => rfl) (statEvent_becomes ..)
  · exact marks

end Sys2Proof.Machine

/-! PROOFS. The laws that the parts of the events and the services keep: those of the entries, what holds while the engine
is HALTED, and the reason of a freeze. -/

namespace Sys2Proof.Machine

/-! ### Three laws and what keeps them -/

/-- While the engine is HALTED the record is the cleared one, and no entry has an open interlock or a raise-ready flag
(R8, R87). -/
def State.StoodDown (s : State) : Prop :=
  s.halted = true →
    s.published = Published.cleared ∧ ∀ i, (s.station i).interlock = none ∧ (s.station i).ready = false

/-- A freeze has a reason, and no reason stands without a freeze (R145). -/
def Stats.Reasoned (x : Stats) : Prop := x.frozen = false ↔ x.reason = FreezeReason.empty

/-- A frozen unit stays frozen, its counter values and residency counters where they are (R145). -/
def Stats.Stands (x y : Stats) : Prop :=
  x.frozen = true → y.frozen = true ∧ y.residency = x.residency ∧ ∀ n, (look y.counters n).value = (look x.counters n).value

/-- `t` has the three laws that `s` has, and its frozen unit stands still. -/
structure State.Follows (s t : State) : Prop where
  wf : s.StationsWf → t.StationsWf
  down : s.StoodDown → t.StoodDown
  reason : s.stats.Reasoned → t.stats.Reasoned
  stands : s.stats.Stands t.stats

section
variable {s t u : State} {i : StationId} {e : Station}

theorem Stats.Stands.refl (x : Stats) : x.Stands x := fun frozen => ⟨frozen, rfl, fun _ => rfl⟩

theorem Stats.Stands.of_eq {x y : Stats} (h : y = x) : x.Stands y := h ▸ .refl x

theorem Stats.Stands.trans {x y z : Stats} (h : x.Stands y) (g : y.Stands z) : x.Stands z := fun frozen => by
  obtain ⟨stays, residency, values⟩ := h frozen
  obtain ⟨stays', residency', values'⟩ := g stays
  exact ⟨stays', residency'.trans residency, fun n => (values' n).trans (values n)⟩

theorem State.Follows.refl (s : State) : s.Follows s := ⟨id, id, id, .refl _⟩

theorem State.Follows.trans (h : s.Follows t) (g : t.Follows u) : s.Follows u :=
  ⟨g.wf ∘ h.wf, g.down ∘ h.down, g.reason ∘ h.reason, h.stands.trans g.stands⟩

theorem State.Follows.of_stats (stations : t.stations = s.stations) (published : t.published = s.published)
    (engine : t.engine = s.engine) (reason : s.stats.Reasoned → t.stats.Reasoned) (stands : s.stats.Stands t.stats) :
    s.Follows t where
  wf h i := by
    rw [station_congr stations]
    exact h i
  down h halted := by
    rw [halted_congr engine] at halted
    obtain ⟨cleared, entries⟩ := h halted
    exact ⟨published.trans cleared, fun i => by rw [station_congr stations]; exact entries i⟩
  reason := reason
  stands := stands

theorem State.Follows.of_same (stations : t.stations = s.stations) (published : t.published = s.published)
    (engine : t.engine = s.engine) (stats : t.stats = s.stats) : s.Follows t :=
  .of_stats stations published engine (fun h => stats ▸ h) (.of_eq stats)

theorem statEvent_reasoned (h : s.stats.Reasoned) (x : StatSource) (m : Nat) (p : Port) :
    (s.statEvent x m p).stats.Reasoned := by
  unfold State.statEvent
  split
  · exact h
  · simp only
    split
    · rw [statFreeze_stats]
      split
      · exact h
      · exact iff_of_false (by simp) (by simp [FreezeReason.empty])
    · exact h

theorem statEvents_reasoned (h : s.stats.Reasoned) (es : List SourceEvent) : (s.statEvents es).stats.Reasoned := by
  induction es generalizing s with
  | nil => exact h
  | cons e es ih => exact ih (statEvent_reasoned h ..)

/-- What became of one entry leaves a HALTED engine's entries closed and unready. -/
theorem State.Becomes.down (h : s.Becomes t i e)
    (closed : s.halted = true → (s.station i).interlock = none → e.interlock = none) (laws : s.StoodDown) :
    t.StoodDown := fun halted => by
  rw [h.halted] at halted
  obtain ⟨cleared, entries⟩ := laws halted
  refine ⟨h.published.trans cleared, fun j => ?_⟩
  by_cases own : j = i
  · subst own
    refine ⟨?_, ?_⟩
    · rw [h.entry]
      exact closed halted (entries j).1
    · by_contra up
      rcases h.raised (by simpa using up) with before | mask
      · rw [(entries j).2] at before
        cases before
      · rw [cleared] at mask
        simp [Published.cleared] at mask
  · rw [h.others j own]
    exact entries j

theorem State.Becomes.reasoned (h : s.Becomes t i e) (laws : s.stats.Reasoned) : t.stats.Reasoned := by
  obtain ⟨es, act⟩ := h.act
  rw [act.stats]
  exact statEvents_reasoned laws es

/-- What became of one entry handed source events to the unit alone, which a frozen one does not count. -/
theorem State.Becomes.stands (h : s.Becomes t i e) : s.stats.Stands t.stats := fun frozen => by
  obtain ⟨es, act⟩ := h.act
  rw [act.stats, statEvents_of_frozen frozen]
  exact ⟨frozen, rfl, fun _ => rfl⟩

/-- What became of one entry keeps the laws, where it keeps those of the entry. -/
theorem State.Becomes.follows (h : s.Becomes t i e) (wf : (s.station i).Wf → e.Wf)
    (closed : s.halted = true → (s.station i).interlock = none → e.interlock = none) : s.Follows t where
  wf laws j := by
    by_cases own : j = i
    · rw [own, h.entry, wf_ready]
      exact wf (laws i)
    · rw [h.others j own]
      exact laws j
  down := h.down closed
  reason := h.reasoned
  stands := h.stands

/-- A change of the flag alone. -/
theorem State.Becomes.followsSame (h : s.Becomes t i (s.station i)) : s.Follows t := h.follows id fun _ closed => closed

/-! ### The parts of events -/

theorem statEvent_follows (s : State) (x : StatSource) (m : Nat) (p : Port) : s.Follows (s.statEvent x m p) :=
  .of_stats (by simp) (by simp) (by simp) (fun h => statEvent_reasoned h x m p) fun frozen => by
    rw [show s.statEvent x m p = s from if_pos frozen]
    exact ⟨frozen, rfl, fun _ => rfl⟩

theorem fire_follows (s : State) (k : CauseKind) (j : StationId) : s.Follows (s.fire k j) :=
  .of_same rfl rfl rfl rfl

theorem conditionEnded_follows (s : State) (k : CauseKind) (j : StationId) : s.Follows (s.conditionEnded k j) :=
  .of_same rfl rfl rfl rfl

theorem evalReady_follows (s : State) (i : StationId) : s.Follows (s.evalReady i) := (evalReady_becomes s i).followsSame

/-- Parts that follow each other, or stand together, keep the laws that each of them keeps. -/
theorem forStations_follows {f : State → StationId → State} (each : ∀ (t : State) i, t.Follows (f t i)) (s : State) :
    s.Follows (s.forStations f) :=
  forStations_inv (P := fun t => s.Follows t) f (fun t i ht => ht.trans (each t i)) s (.refl s)

theorem together_follows {α : Type} {act : State → α → State} (parts : List (List α))
    (each : ∀ (t : State) x, t.Follows (act t x))
    (s : State) : s.Follows (s.together act parts) :=
  together_inv (P := fun t => s.Follows t) (fun _ _ ht => ht.trans (.of_same rfl rfl rfl rfl))
    (fun t x _ ht => ht.trans (each t x)) s (.refl s)

theorem evalReadyAll_follows (s : State) : s.Follows s.evalReadyAll := forStations_follows evalReady_follows s

theorem endRecord_follows (s : State) (i : StationId) : s.Follows (s.endRecord i) :=
  (endRecord_becomes s i).follows Station.Wf.worst fun _ _ => worst_interlock _

theorem cancelInterlock_follows (s : State) (i : StationId) : s.Follows (s.cancelInterlock i) :=
  (cancelInterlock_becomes s i).follows Station.Wf.worst fun _ _ => worst_interlock _

theorem moved_closed (h : e.interlock = none) (new : StationState) : (e.moved new).interlock = none := by
  unfold Station.moved
  rw [worst_of_none h, ite_self]
  exact h

theorem enters_closed (h : e.interlock = none) (new : StationState) : (e.enters new).interlock = none := by
  unfold Station.enters
  split
  · exact h
  · exact moved_closed h new

theorem onEvent_closed (h : e.interlock = none) (mode : MonMode) (ev : MonEvent) : (e.onEvent mode ev).interlock = none := by
  unfold Station.onEvent
  split
  · exact moved_closed (e := e.marked mode ev) h .faulted
  · exact h

theorem monitorEvent_follows (s : State) (i : StationId) (ev : MonEvent) : s.Follows (s.monitorEvent i ev) :=
  (monitorEvent_becomes s i ev).follows (fun h => h.onEvent _ ev) fun _ closed => onEvent_closed closed _ ev

theorem respondEnd_follows (s : State) (i : StationId) (ev : MonEvent) : s.Follows (s.respondEnd i ev) :=
  (monitorEvent_follows s i ev).trans (evalReady_follows _ i)

theorem breakInterlock_follows (s : State) (i : StationId) (ev : MonEvent) : s.Follows (s.breakInterlock i ev) := by
  unfold State.breakInterlock
  split
  · exact (endRecord_follows s i).trans (respondEnd_follows _ i ev)
  · exact .refl s

theorem takingEnds_follows (s : State) (p : Port) (b : Body) : s.Follows (s.takingEnds p b) := by
  unfold State.takingEnds
  split
  · next i _ =>
    rcases endAtTaking_eq s i b with same | broken
    · rw [same]
      exact .refl s
    · rw [broken]
      exact breakInterlock_follows s i _
  · exact .refl s
  · exact .refl s

/-! ### JOIN, LEAVE, PARK, UNPARK and the reset of an entry -/

theorem joinState_live (e : Station) : e.joinState ≠ .parked ∧ e.joinState ≠ .absent := by
  unfold Station.joinState
  split <;> decide

theorem joinState_holding (e : Station) : e.joinState = .faulted ↔ e.holding ≠ 0 := by
  unfold Station.joinState
  split
  · next empty => exact iff_of_false (by decide) (not_not.2 empty)
  · next held => exact iff_of_true rfl held

theorem enterJoining_becomes (s : State) (i : StationId) :
    s.Becomes (s.enterJoining i) i ((s.station i).enters (s.station i).joinState) := setEntryState_becomes ..

theorem serveJoin_follows (s : State) (i : StationId) : s.Follows (serveJoin s i).1 := by
  unfold serveJoin
  simp only
  split
  · next absent =>
    split
    · exact .refl s
    · have became := (updStation_becomes s i (fun e => { e with age := 0 }) rfl).andThen
        (f := fun e => e.enters e.joinState) (fun e b => blind_enters _ e b) (enterJoining_becomes ..)
      refine became.follows (fun h => ?_) fun _ closed =>
        enters_closed (e := { s.station i with age := 0 }) closed _
      rw [Station.enters, if_neg fun same => (joinState_live _).2 (same.symm.trans absent)]
      have sound : ({ s.station i with age := 0 } : Station).Sound :=
        { h.sound with ranges := ⟨Nat.zero_le _, h.ranges.2.1, h.ranges.2.2⟩ }
      exact sound.movedLive (h.unparked (by rw [absent]; decide)) (joinState_live _) (joinState_holding _)
  · exact .refl s

theorem serveLeave_follows (s : State) (i : StationId) : s.Follows (serveLeave s i).1 := by
  unfold serveLeave
  split
  · exact .refl s
  · next present =>
    have became := (setEntryState_becomes s i .absent).andThen (f := Station.emptied) (fun _ _ => rfl)
      (updStation_becomes _ i Station.emptied rfl)
    refine became.follows (fun h => ?_) fun _ closed => enters_closed closed _
    rw [Station.enters, if_neg present]
    have sound := h.sound.moved .absent
    obtain ⟨state, -⟩ := moved_keeps (s.station i) .absent
    exact
      { ratingRange := sound.ratingRange, appliedBound := Nat.zero_le _, availBound := Nat.zero_le _
        parked := by rw [show ((s.station i).moved .absent).emptied.state = .absent from state]; simp [Station.emptied]
        parkBound := fun _ ceiling => by cases ceiling
        interlocked := fun r opened => by
          have online := (sound.interlocked r opened).1
          rw [state] at online
          cases online
        faulted := fun live => by
          rw [show ((s.station i).moved .absent).emptied.state = .absent from state] at live
          cases live
        fresh := fun _ => rfl
        absent := fun _ => ⟨rfl, rfl, rfl, rfl⟩
        ranges := ⟨Nat.zero_le _, Nat.zero_le _, Nat.zero_le _⟩ }

theorem servePark_follows (s : State) (station : Byte) (ceiling : BitVec 16) :
    s.Follows (servePark s station ceiling).1 := by
  unfold servePark
  split
  · exact .refl s
  · next i _ =>
    split
    · exact .refl s
    · have became := (setEntryState_becomes s i .parked).andThen
        (f := Station.parkAt (min ceiling.toNat (s.station i).rating)) (fun _ _ => rfl) (updStation_becomes _ i _ rfl)
      refine became.follows (fun h => ?_) fun _ closed => enters_closed closed _
      have sound : ((s.station i).enters .parked).Sound := by
        unfold Station.enters
        split
        · exact h.sound
        · exact h.sound.moved .parked
      have state : ((s.station i).enters .parked).state = .parked := by
        unfold Station.enters
        split
        · next same => exact same
        · exact (moved_keeps _ _).1
      have rating : ((s.station i).enters .parked).rating = (s.station i).rating := by
        unfold Station.enters
        split
        · rfl
        · exact (moved_keeps _ _).2.2.2.2.2.2
      have parked : (((s.station i).enters .parked).parkAt (min ceiling.toNat (s.station i).rating)).Sound :=
        { sound with
          parkBound := fun c same => by
            obtain rfl := Option.some.inj same
            exact (Nat.min_le_right _ _).trans rating.ge }
      have state : (((s.station i).enters .parked).parkAt (min ceiling.toNat (s.station i).rating)).state = .parked := state
      exact parked.wf (iff_of_true rfl state) (fun live => by rw [state] at live; cases live)
        fun absent => by rw [state] at absent; cases absent

theorem serveUnpark_follows (s : State) (station : Byte) : s.Follows (serveUnpark s station).1 := by
  unfold serveUnpark
  split
  · exact .refl s
  · next i _ =>
    split
    · next parked =>
      have became := (updStation_becomes s i (fun e => { e with park := none }) rfl).andThen
        (f := fun e => e.enters e.joinState) (fun e b => blind_enters _ e b) (enterJoining_becomes ..)
      refine became.follows (fun h => ?_) fun _ closed => enters_closed (e := { s.station i with park := none }) closed _
      rw [Station.enters, if_neg fun same => (joinState_live _).1 (same.symm.trans parked)]
      have sound : ({ s.station i with park := none } : Station).Sound := { h.sound with parkBound := fun _ none => by cases none }
      exact sound.movedLive rfl (joinState_live _) (joinState_holding _)
    · exact .refl s

theorem resetEntry_follows (s : State) (i : StationId) : s.Follows (s.resetEntry i) := by
  unfold State.resetEntry
  split
  · exact .refl s
  · next present =>
    have became := ((enterJoining_becomes s i).andThen blind_worst (cancelInterlock_becomes ..)).andThen
      (f := fun e => { e with park := none, age := 0 }) (fun _ _ => rfl)
      (updStation_becomes _ i (fun e => { e with park := none, age := 0 }) rfl)
    refine became.follows (fun h => ?_) fun _ _ => worst_interlock _
    have entered : ((s.station i).enters (s.station i).joinState).Sound ∧
        ((s.station i).enters (s.station i).joinState).state = (s.station i).joinState ∧
        ((s.station i).enters (s.station i).joinState).holding = (s.station i).holding := by
      unfold Station.enters
      split
      · next same => exact ⟨h.sound, same, rfl⟩
      · exact ⟨h.sound.moved _, (moved_keeps _ _).1, (moved_keeps _ _).2.2.1⟩
    obtain ⟨sound, state, holding⟩ := entered
    obtain ⟨state', -, -, holding', -⟩ := worst_keeps ((s.station i).enters (s.station i).joinState)
    have cleared : ({ ((s.station i).enters (s.station i).joinState).worst with park := none, age := 0 } : Station).Sound :=
      { sound.worst with
        parkBound := fun _ none => by cases none
        ranges := ⟨Nat.zero_le _, sound.worst.ranges.2⟩ }
    have live := joinState_live (s.station i)
    refine cleared.wf ?_ ?_ ?_ <;> simp only [state'.trans state, holding'.trans holding]
    · exact iff_of_false (by simp) live.1
    · exact fun _ => joinState_holding _
    · exact fun absent => absurd absent live.2

/-! ### FAULT-CLEAR and TELEMETRY -/

theorem faultCleared_wf {e : Station} (h : e.Wf) : e.faultCleared.Wf := by
  by_cases faulted : e.state = .faulted
  · have closed := h.sound.closed (by rw [faulted]; decide)
    have unparked := h.unparked (by rw [faulted]; decide)
    have still := h.fresh (by rw [faulted]; decide)
    simp only [Station.faultCleared, faulted, if_true]
    exact
      { h with
        parked := by rw [unparked]; simp
        interlocked := fun r opened => by rw [closed] at opened; cases opened
        faulted := fun _ => iff_of_false (by simp) (by simp)
        fresh := fun _ => still
        absent := fun absent => by cases absent
        ranges := ⟨h.ranges.1, Nat.zero_le _, h.ranges.2.2⟩ }
  · simp only [Station.faultCleared, faulted, if_false]
    exact
      { h with
        faulted := fun _ => iff_of_false faulted (by simp)
        ranges := ⟨h.ranges.1, Nat.zero_le _, h.ranges.2.2⟩ }

theorem serveFaultClear_follows (s : State) (i : StationId) : s.Follows (serveFaultClear s i).1 := by
  rw [serveFaultClear_eq]
  have entry : (s.updStation i Station.faultCleared).station i = (s.station i).faultCleared := by
    rw [station_updStation, if_pos rfl]
  have became : s.Becomes (s.updStation i Station.faultCleared) i (s.station i).faultCleared := by
    refine ⟨⟨_, updStation_act s i _⟩, by rw [entry], fun up => .inl ?_⟩
    rw [entry] at up
    simp only [Station.faultCleared, Bool.if_false_left, Bool.and_eq_true] at up
    exact up.2
  exact (became.follows faultCleared_wf fun _ closed => closed).trans (.of_same rfl rfl rfl rfl)

theorem serveFaultClearNamed_follows (s : State) (station : Byte) : s.Follows (serveFaultClearNamed s station).1 := by
  unfold serveFaultClearNamed
  split
  · exact .of_same (by simp) (by simp) (by simp) (by simp)
  · split
    · exact serveFaultClear_follows s _
    · exact .refl s

theorem markedEntry_sound {s : State} {i : StationId} (meas avail : BitVec 16) (h : (s.station i).Wf) :
    (s.markedEntry i meas avail).Sound := by
  rw [markedEntry_eq s i meas avail h]
  refine
    { ratingRange := h.ratingRange, appliedBound := h.appliedBound, availBound := Nat.min_le_right _ _
      parkBound := h.parkBound, interlocked := fun r opened => ?_, fresh := fun _ => rfl
      ranges := ⟨Nat.zero_le _, ?_, Nat.zero_le _⟩ }
  · obtain ⟨online, bounds⟩ := h.interlocked r opened
    exact ⟨by simp only [online]; rfl, bounds⟩
  · simp only
    split
    · exact Nat.min_le_left _ _
    · exact Nat.zero_le _

/-- What an accepted report and its judgement make of an entry keeps its laws. -/
theorem accepted_wf {s : State} {i : StationId} {meas avail : BitVec 16} (h : (s.station i).Wf)
    (present : (s.station i).state ≠ .absent) :
    ((s.reportEntry i meas.toNat (min avail.toNat (s.station i).rating)).judgedEntry i (s.viewOf i meas avail)).Wf := by
  have became := reportEntry_becomes s i meas.toNat (min avail.toNat (s.station i).rating)
  have held : ((s.reportEntry i meas.toNat (min avail.toNat (s.station i).rating)).station i).holding =
      (s.station i).holding := by
    rw [became.entry, reported_eq]
    rfl
  have marks := judgeMarks_reportEntry s i meas avail
  have sound := markedEntry_sound meas avail h
  have shape := markedEntry_eq s i meas avail h
  unfold State.judgedEntry
  generalize s.reportEntry i meas.toNat (min avail.toNat (s.station i).rating) = m at held marks ⊢
  generalize (m.judgeMarks i (s.viewOf i meas avail)).station i = k at marks ⊢
  have kept : k.Sound ∧ k.state = (s.station i).state.reported ∧ k.park = (s.station i).park := by
    rw [marks]
    exact ⟨⟨sound.1, sound.2, sound.3, sound.4, sound.5, sound.6, sound.7⟩, by rw [shape], by rw [shape]⟩
  obtain ⟨sound, state, park⟩ := kept
  have after := turned_state (e := m.station i) (m := k) (by rw [held]; exact h.faulted) present state
  have turned : (k.turned ((m.station i).turn k)).Sound ∧ (k.turned ((m.station i).turn k)).park = (s.station i).park ∧
      (k.turned ((m.station i).turn k)).holding = k.holding := by
    unfold Station.turned
    split
    · exact ⟨sound, park, rfl⟩
    · next new _ => exact ⟨sound.moved new, (moved_keeps k new).2.1.trans park, (moved_keeps k new).2.2.1⟩
  obtain ⟨sound, park, holding⟩ := turned
  refine sound.wf ?_ ?_ ?_
  · rw [park, h.parked, after]
    unfold reportState
    split
    · next parked => exact iff_of_true parked rfl
    · next other => exact iff_of_false other (by split <;> decide)
  · rw [after, holding]
    unfold reportState
    split
    · exact fun live => by cases live
    · split
      · next empty => exact fun _ => iff_of_false (by decide) (not_not.2 empty)
      · next held => exact fun _ => iff_of_true rfl held
  · rw [after]
    unfold reportState
    split
    · exact fun absent => by cases absent
    · split <;> exact fun absent => by cases absent

theorem accepted_closed {s : State} {i : StationId} {meas avail : BitVec 16} (h : (s.station i).interlock = none) :
    ((s.reportEntry i meas.toNat (min avail.toNat (s.station i).rating)).judgedEntry i
      (s.viewOf i meas avail)).interlock = none := by
  have marks := judgeMarks_reportEntry s i meas avail
  have closed : (s.markedEntry i meas avail).interlock = none := (markedEntry_keeps s i meas avail).2.1.trans h
  unfold State.judgedEntry Station.turned
  split
  · rw [marks]
    exact closed
  · exact moved_closed (by rw [marks]; exact closed) _

theorem serveTelemetry_follows (s : State) (i : StationId) (meas avail : BitVec 16) :
    s.Follows (serveTelemetry s i meas avail).1 := by
  by_cases absent : (s.station i).state = .absent
  · rw [serveTelemetry_of_absent absent]
    exact .refl s
  cases early : isEarly s.params (s.station i).age with
  | true =>
    rw [serveTelemetry_of_early absent early]
    exact monitorEvent_follows s i .early
  | false =>
    rw [serveTelemetry_of_accepted absent early]
    exact (accepted_becomes s i meas avail).follows (fun h => accepted_wf h absent) fun _ closed => accepted_closed closed

end

end Sys2Proof.Machine

/-! PROOFS. The laws of the entries at takes, confirmations, writes of the parameters, halts and publications. -/

namespace Sys2Proof.Machine

section
variable {s t : State} {i : StationId}

/-! ### Ceiling takes -/

/-- A take grants no more than the rating of its station (R75, R79). -/
theorem granted_le_rating (h : (s.station i).applied ≤ (s.station i).rating) :
    (grantOf s i).2 ≤ (s.station i).rating := by
  have offer : s.liveOffer s.published i ≤ (s.station i).rating := Nat.min_le_right _ _
  rw [grantOf_granted]
  split
  · exact offer
  · split
    · exact h
    · omega

theorem raiseEvent_becomes (s : State) (i : StationId) (code : AnswerCode) (applied granted offer : Nat) :
    s.Becomes (s.raiseEvent i code applied granted offer) i (s.station i) := by
  obtain same | ⟨x, m, one⟩ := raiseEvent_cases s i code applied granted offer
  · rw [same]
    exact .refl s i
  · rw [one]
    exact statEvent_becomes ..

theorem takeFromRecord_follows (online : (s.station i).state = .online) (live : s.halted = false) :
    s.Follows (takeFromRecord s i).1 := by
  have became := ((updStation_becomes s i (fun e =>
      { e with
        interlock := some { granted := (grantOf s i).2, reserved := (grantOf s i).2 - (s.station i).applied,
                            takeTag := s.published.tag, publications := 0 } }) rfl).andThen
    (f := id) (fun _ _ => rfl) (raiseEvent_becomes _ i (grantOf s i).1 (s.station i).applied (grantOf s i).2
      (s.liveOffer s.published i))).andThen (f := id) (fun _ _ => rfl) (evalReady_becomes ..)
  refine became.follows (fun h => ?_) fun halted => by rw [live] at halted; cases halted
  exact
    { h with
      interlocked := fun r opened => by
        obtain rfl := Option.some.inj opened
        exact ⟨online, granted_le_rating h.appliedBound, rfl⟩ }

theorem answerTake_follows (s : State) (i : StationId) : s.Follows (answerTake s i).1 := by
  unfold answerTake
  split
  · exact .refl s
  · split
    · exact .refl s
    · next live =>
      split
      · next opens =>
        simp only [Bool.and_eq_true, decide_eq_true_eq] at opens
        exact takeFromRecord_follows opens.1 (by simpa using live)
      · exact evalReady_follows s i

theorem serveCeilTake_follows (s : State) (i : StationId) (tag : Byte) : s.Follows (serveCeilTake s i tag).1 := by
  unfold serveCeilTake
  split
  · exact .of_same rfl rfl rfl rfl
  · exact answerTake_follows s i

theorem answerHeldTakes_follows (s : State) : s.Follows s.answerHeldTakes := by
  have each : ∀ (held : List HeldTake) (t : State), s.Follows t → s.Follows (held.foldl State.answerHeldTake t) := by
    intro held
    induction held with
    | nil => exact fun t ht => ht
    | cons k held ih =>
      exact fun t ht => ih _ ((ht.trans (answerTake_follows t k.station)).trans (.of_same rfl rfl rfl rfl))
  exact each _ _ (.of_same rfl rfl rfl rfl)

/-! ### CEIL-APPLY -/

theorem unpaired_follows (s : State) (i : StationId) : s.Follows (s.unpaired i) := by
  refine together_follows _ (fun t x => ?_) s
  cases x with
  | counted => exact statEvent_follows ..
  | judged => exact monitorEvent_follows ..

/-- An interlock closed at an applied ceiling within the rating. -/
theorem closed_wf {e : Station} (h : e.Wf) {r : Interlock} (opened : e.interlock = some r) {c : Nat} (le : c ≤ e.rating) :
    ({ e with applied := c, interlock := none } : Station).Wf :=
  { h with
    appliedBound := le
    interlocked := fun _ none => by cases none
    absent := fun absent => absurd ((h.interlocked r opened).1.symm.trans absent) (by decide) }

theorem serveCeilApply_follows (s : State) (i : StationId) (echo : BitVec 16) :
    s.Follows (serveCeilApply s i echo).1 := by
  unfold serveCeilApply
  simp only
  split
  · next r opened =>
    split
    · next within =>
      refine (State.Becomes.follows (updStation_becomes s i (fun e =>
        { e with applied := echo.toNat, interlock := none }) rfl) (fun h => ?_) fun _ _ => rfl).trans (evalReady_follows ..)
      exact closed_wf h opened (within.trans (h.interlocked r opened).2.1)
    · refine ((State.Becomes.follows (updStation_becomes s i (fun e =>
        { e with applied := min echo.toNat (s.station i).rating, interlock := none }) rfl) (fun h => ?_)
          fun _ _ => rfl).trans (monitorEvent_follows ..)).trans (evalReady_follows ..)
      exact closed_wf h opened (Nat.min_le_right _ _)
  · split
    · exact .refl s
    · exact (unpaired_follows s i).trans (evalReady_follows ..)

/-! ### Writes of the parameters -/

theorem dropEvents_follows (s : State) (p : Port) (n : Nat) : s.Follows (s.dropEvents p n) := by
  induction n generalizing s with
  | zero => exact .refl s
  | succ n ih => exact (statEvent_follows ..).trans (ih _)

/-- A write of STATION_RATING where R65 lets it through. -/
theorem writeRating_wf {e : Station} (h : e.Wf) (writable : e.state = .absent ∨ e.state = .parked) {r : Nat}
    (le : r ≤ 65535) : (e.writeRating r).Wf := by
  have closed := h.sound.closed (by rcases writable with state | state <;> rw [state] <;> decide)
  unfold Station.writeRating
  split
  · next parked =>
    exact
      { h with
        ratingRange := le
        appliedBound := Nat.min_le_right _ _
        availBound := Nat.min_le_right _ _
        parked := by simpa using h.parked
        parkBound := fun c ceiling => by
          obtain ⟨x, -, rfl⟩ := Option.map_eq_some_iff.1 ceiling
          exact Nat.min_le_left _ _
        interlocked := fun x opened => by rw [closed] at opened; cases opened
        absent := fun absent => absurd (parked.symm.trans absent) (by decide) }
  · next other =>
    have absent := writable.resolve_right other
    obtain ⟨-, avail, applied, -⟩ := h.absent absent
    exact
      { h with
        ratingRange := le
        appliedBound := by simp only [applied]; exact Nat.zero_le _
        availBound := by simp only [avail]; exact Nat.zero_le _
        parkBound := fun c ceiling => by rw [h.unparked other] at ceiling; cases ceiling
        interlocked := fun x opened => by rw [closed] at opened; cases opened }

theorem writeRating_closed {e : Station} (h : e.interlock = none) (r : Nat) : (e.writeRating r).interlock = none := by
  unfold Station.writeRating
  split <;> exact h

theorem writeGroup_follows (s : State) (i : StationId) (v : Nat) : s.Follows (s.writeGroup i v) := by
  have written := updStation_becomes s i (fun e => { e with group := ⟨min 3 v, by omega⟩ }) rfl
  exact (written.follows (fun h => ⟨h.1, h.2, h.3, h.4, h.5, h.6, h.7, h.8, h.9, h.10⟩) fun _ closed => closed).trans
    (evalReady_follows _ i)

theorem storeParam_follows {s : State} {id index : Nat} (writable : id = 17 → ratingWritable s index = true)
    (value : BitVec 32) : s.Follows (storeParam s id index value) := by
  unfold storeParam
  simp only
  split
  case h_17 =>
    split
    · next i place =>
      have state : (s.station i).state = .absent ∨ (s.station i).state = .parked := by
        simpa only [ratingWritable, place, Bool.or_eq_true, beq_iff_eq] using writable rfl
      have ready : ((s.station i).writeRating (nearest 0 65535 value.toNat)).ready = (s.station i).ready := by
        unfold Station.writeRating
        split <;> rfl
      exact (updStation_becomes s i (fun e => e.writeRating (nearest 0 65535 value.toNat)) ready).follows
        (fun h => writeRating_wf h state (by unfold nearest; omega)) fun _ closed => writeRating_closed closed _
    · exact .refl s
  case h_18 =>
    split
    · exact writeGroup_follows ..
    · exact .refl s
  case h_28 =>
    refine State.Follows.trans ?_ (evalReadyAll_follows _)
    exact .of_same rfl rfl rfl rfl
  case h_29 =>
    split
    · refine State.Follows.trans ?_ (dropEvents_follows ..)
      exact .of_same rfl rfl rfl rfl
    · exact .refl s
  case h_30 => split <;> exact .of_same rfl rfl rfl rfl
  case h_31 => split <;> exact .of_same rfl rfl rfl rfl
  all_goals exact .of_same rfl rfl rfl rfl

theorem serveParamSet_follows (s : State) (id index : Byte) (value : BitVec 32) :
    s.Follows (serveParamSet s id index value).1 := by
  rcases serveParamSet_cases s id index value with same | ⟨-, writable, store⟩
  · rw [same]
    exact .refl s
  · rw [store]
    exact storeParam_follows writable value

/-! ### Scopes, statistics, starts and halts -/

theorem releaseScopes_follows (s : State) (scopes : Vector Scope 5) : s.Follows (s.releaseScopes scopes) := by
  unfold State.releaseScopes
  simp only
  split
  · refine State.Follows.trans ?_ (evalReadyAll_follows _)
    split <;> exact .of_same rfl rfl rfl rfl
  · exact .of_same rfl rfl rfl rfl

theorem serveFreezeRelease_follows (s : State) (scope : Byte) : s.Follows (serveFreezeRelease s scope).1 := by
  unfold serveFreezeRelease
  split
  · exact .refl s
  · exact releaseScopes_follows ..

theorem statFreeze_reasoned (h : s.stats.Reasoned) {why : FreezeReason} (some : why ≠ FreezeReason.empty) :
    (s.statFreeze why).stats.Reasoned := by
  rw [statFreeze_stats]
  split
  · exact h
  · exact iff_of_false (by simp) some

theorem statUnfreeze_reasoned (h : s.stats.Reasoned) : s.statUnfreeze.stats.Reasoned := by
  unfold State.statUnfreeze
  split
  · exact iff_of_true rfl rfl
  · exact h

/-- The actions that write counter values or end a freeze. -/
def StatAction.writes : StatAction → Bool
  | .unfreeze | .clearAll | .preset _ _ => true
  | _ => false

/-- Whether a request writes counter values or ends a freeze (R145). -/
def Body.writesCounters : Body → Bool
  | .statCtrl action => action.writes
  | _ => false

theorem Body.statCtrl_of_writes {b : Body} (h : b.writesCounters = true) : ∃ action, b = .statCtrl action := by
  cases b
  case statCtrl action => exact ⟨action, rfl⟩
  all_goals cases h

theorem serveStatCtrl_reasoned (h : s.stats.Reasoned) (action : StatAction) :
    (serveStatCtrl s action).1.stats.Reasoned := by
  cases action
  case freeze => exact statFreeze_reasoned h (by decide)
  case unfreeze => exact statUnfreeze_reasoned h
  case clearAll => exact statUnfreeze_reasoned (s := s.setStats _) h
  all_goals
    simp only [serveStatCtrl]
    (repeat' split) <;> exact h

theorem statFreeze_stands (s : State) (why : FreezeReason) : s.stats.Stands (s.statFreeze why).stats := fun frozen => by
  rw [show s.statFreeze why = s from if_pos frozen]
  exact ⟨frozen, rfl, fun _ => rfl⟩

theorem updCounter_stands (x : Stats) (n : Fin 8) {f : Counter → Counter} (h : ∀ c, (f c).value = c.value) :
    x.Stands (x.updCounter n f) := fun frozen => by
  refine ⟨frozen, rfl, fun m => ?_⟩
  simp only [Stats.updCounter, look_put]
  split
  · next own => rw [h, own]
  · rfl

/-- Of the actions only those that write counters let a frozen unit move. -/
theorem serveStatCtrl_stands (s : State) {action : StatAction} (h : action.writes = false) :
    s.stats.Stands (serveStatCtrl s action).1.stats := by
  cases action
  case freeze => exact statFreeze_stands s _
  case unfreeze => cases h
  case clearAll => cases h
  case preset => cases h
  case clearOvf named =>
    refine fun frozen => ⟨frozen, rfl, fun n => ?_⟩
    simp only [serveStatCtrl, statReply, State.setStats, look_tabulate]
    split <;> rfl
  case configure counter record =>
    simp only [serveStatCtrl]
    split
    · exact updCounter_stands s.stats _ fun _ => rfl
    · exact .refl _
  case filter which record =>
    simp only [serveStatCtrl]
    split
    · exact fun frozen => ⟨frozen, rfl, fun _ => rfl⟩
    · exact .refl _
  case freezeOnHard x => exact fun frozen => ⟨frozen, rfl, fun _ => rfl⟩
  case undefined => exact .refl _

theorem serveStatCtrl_follows (s : State) {action : StatAction} (h : action.writes = false) :
    s.Follows (serveStatCtrl s action).1 :=
  .of_stats (by simp) (by simp) (by simp) (fun h => serveStatCtrl_reasoned h action) (serveStatCtrl_stands s h)

/-- A started engine is not HALTED, so the law of a HALTED one asks nothing. -/
theorem State.StoodDown.of_unhalted (h : t.halted = false) : t.StoodDown := fun halted => by
  rw [h] at halted
  cases halted

theorem startEngine_follows (s : State) : s.Follows s.startEngine := by
  refine State.Follows.trans ?_ ((releaseScopes_follows _ _).trans (evalReadyAll_follows _))
  refine ⟨fun h i => ?_, fun _ => .of_unhalted rfl, id, fun frozen => ⟨frozen, rfl, fun n => by
    simp [Stats.clearEdges]⟩⟩
  have entry : ∀ u : State, (u.updStations fun _ e => { e with age := 0 }).station i = { u.station i with age := 0 } :=
    fun u => by simp
  refine (entry ((s.setEngine _).setPublished Published.cleared)).symm ▸ ?_
  have wf : (s.station i).Wf := h i
  exact
    { wf with
      absent := fun absent => by
        obtain ⟨meas, avail, applied, -⟩ := wf.absent absent
        exact ⟨meas, avail, applied, rfl⟩
      ranges := ⟨Nat.zero_le _, wf.ranges.2⟩ }

theorem serveEngStart_follows (s : State) : s.Follows (serveEngStart s).1 := by
  unfold serveEngStart
  split
  · dsimp only
    exact startEngine_follows s
  · exact .refl s

theorem answerHeldDispatch_follows (s : State) : s.Follows s.answerHeldDispatch :=
  .of_same (by unfold State.answerHeldDispatch; split <;> rfl) (by simp) (by simp)
    (by simp)

theorem grantHalt_follows (s : State) : s.Follows s.grantHalt :=
  ((together_follows _ cancelInterlock_follows s).trans (answerHeldTakes_follows _)).trans (evalReadyAll_follows _)

/-- From the stop of the engine on, the parts of a halt keep the laws. -/
theorem haltEngine_follows (s : State) : s.stopEngine.Follows s.haltEngine :=
  (grantHalt_follows _).trans (answerHeldDispatch_follows _)

/-! ### Publications -/

theorem fireWhile_follows (s : State) (k : CauseKind) (c : Bool) : s.Follows (s.fireWhile k c) := by
  unfold State.fireWhile
  split <;> exact .of_same rfl rfl rfl rfl

theorem freezeScope_follows (s : State) (n : ScopeId) : s.Follows (s.freezeScope n) := by
  unfold State.freezeScope
  simp only
  split
  · exact .of_same rfl rfl rfl rfl
  · refine State.Follows.trans ?_ (evalReadyAll_follows _)
    exact .of_same rfl rfl rfl rfl

theorem rampViolations_follows (s : State) (x : RunResult) : s.Follows (s.rampViolations x) := by
  unfold State.rampViolations
  simp only
  split <;> split <;> exact .of_same rfl rfl rfl rfl

theorem rampScopes_follows (s : State) (x : RunResult) : s.Follows (s.rampScopes x) := by
  unfold State.rampScopes
  simp only
  have counted : s.Follows (if x.ramp.checked then
      s.releaseScopes (tabulate fun n => (look s.ramp.scopes n).count x.clean x.run.params.freezeAuto) else s) := by
    split
    · exact releaseScopes_follows ..
    · exact .refl s
  split
  · exact counted.trans (freezeScope_follows ..)
  · exact counted

theorem rampPublication_follows (s : State) (x : RunResult) : s.Follows (s.rampPublication x) :=
  (((((rampViolations_follows s x).trans (rampScopes_follows _ x)).trans (fireWhile_follows ..)).trans
    (fireWhile_follows ..)).trans (fireWhile_follows ..)).trans (fireWhile_follows ..)

theorem statPublication_follows (s : State) (es : RunEvents) (plant : PlantState) (collapsed : Bool) :
    s.Follows (s.statPublication es plant collapsed) := by
  refine .of_stats (by simp) (by simp) (by simp) (fun h => ?_) fun frozen => ?_
  · unfold State.statPublication
    simp only
    split
    · next freezes =>
      refine statFreeze_reasoned ?_ fun empty => ?_
      · exact h
      simp only [FreezeReason.empty, FreezeReason.mk.injEq, true_and] at empty
      rw [empty.1, empty.2] at freezes
      simp at freezes
    · exact h
  · unfold State.statPublication
    simp only [frozen, Bool.not_true, Bool.false_and, Bool.false_eq_true, if_false, if_true]
    refine ⟨rfl, rfl, fun n => ?_⟩
    simp only [State.setStats, look_tabulate, Counter.setEdge]
    split <;> rfl

theorem countPublication_wf {e : Station} (h : e.Wf) : e.countPublication.Wf :=
  { h with
    interlocked := fun r opened => by
      obtain ⟨x, before, rfl⟩ := Option.map_eq_some_iff.1 opened
      exact h.interlocked x before }

theorem takeDeadlines_follows (s : State) : s.Follows s.takeDeadlines := by
  unfold State.takeDeadlines
  simp only
  refine State.Follows.trans (t := s.updStations fun _ e => e.countPublication) ?_ (together_follows _ (fun t x => ?_) _)
  · have entry : ∀ i, (s.updStations fun _ e => e.countPublication).station i = (s.station i).countPublication :=
      fun i => by simp
    refine ⟨fun h i => entry i ▸ countPublication_wf (h i), fun h halted => ?_, id, .refl _⟩
    obtain ⟨cleared, entries⟩ := h halted
    refine ⟨cleared, fun i => ?_⟩
    obtain ⟨closed, unready⟩ := entries i
    rw [entry]
    exact ⟨by rw [Station.countPublication, closed]; rfl, unready⟩
  · obtain ⟨i, part⟩ := x
    cases part with
    | ends => exact endRecord_follows t i
    | responds => exact respondEnd_follows t i _

theorem publish_follows (s : State) (x : RunResult) : s.Follows (s.publish x) := by
  have committed : s.Follows (s.nextEvent.commitRun x) :=
    ⟨fun h => h, fun _ => .of_unhalted rfl, id, .refl _⟩
  exact ((((((committed.trans (rampPublication_follows _ x)).trans (statPublication_follows ..)).trans
    (takeDeadlines_follows _)).trans (answerHeldTakes_follows _)).trans (evalReadyAll_follows _)).trans
    (answerHeldDispatch_follows _))

/-! ### All services and PORT-RESET -/

/-- Every service but those of ENG-HALT and of the writes of counters keeps the three laws and a frozen unit. -/
theorem serveBody_follows (s : State) (p : Port) {r : Request} (other : r.body ≠ .engHalt)
    (unwritten : r.body.writesCounters = false) :
    s.Follows (serveBody s p r).1 := by
  have only : ∀ {x : State × Reply}, s.Follows x.1 → s.Follows (supervisorOnly p s x).1 := fun hx =>
    supervisorOnly_keeps (P := fun t => s.Follows t) (.refl s) hx p
  obtain ⟨tag, body⟩ := r
  cases body
  case engHalt => exact absurd rfl other
  case join =>
    simp only [serveBody]
    split
    · exact serveJoin_follows ..
    · exact .of_same (by simp [answered]) (by simp [answered]) (by simp [answered]) (by simp [answered])
    · exact .refl s
  case leave =>
    simp only [serveBody]
    split
    · exact serveLeave_follows ..
    · exact .of_same (by simp [answered]) (by simp [answered]) (by simp [answered]) (by simp [answered])
    · exact .refl s
  case telemetry meas avail =>
    simp only [serveBody]
    split
    · exact serveTelemetry_follows ..
    · exact .refl s
    · exact .refl s
  case ceilTake =>
    simp only [serveBody]
    split
    · exact serveCeilTake_follows ..
    · exact .refl s
    · exact .refl s
  case ceilApply echo =>
    simp only [serveBody]
    split
    · exact serveCeilApply_follows ..
    · exact .refl s
    · exact .refl s
  case paramSet id index value => exact only (serveParamSet_follows s id index value)
  case engStart => exact only (serveEngStart_follows s)
  case park station ceiling => exact only (servePark_follows s station ceiling)
  case unpark station => exact only (serveUnpark_follows s station)
  case faultClear station => exact only (serveFaultClearNamed_follows s station)
  case freezeRelease scope => exact only (serveFreezeRelease_follows s scope)
  case statCtrl action => exact only (serveStatCtrl_follows s unwritten)
  case meter value tag =>
    refine only ?_
    unfold serveMeter
    split
    · exact .refl s
    · next live =>
      split
      · exact .refl s
      · exact ⟨fun h => h, fun _ => .of_unhalted (show s.halted = false by simpa using live), id, .refl _⟩
  all_goals
    refine .of_same ?_ ?_ ?_ ?_ <;> simp only [serveBody, supervisorOnly] <;>
      (repeat' split) <;> simp [answered, roleRefused]

theorem resetBehind_follows (s : State) (p : Port) : s.Follows (s.resetBehind p) := by
  unfold State.resetBehind
  split
  · exact State.Follows.trans (t := s.dropHeldTake _) (.of_same rfl rfl rfl rfl) (resetEntry_follows _ _)
  · exact .of_same (by simp) (by simp) (by simp) (by simp)
  · exact .refl s

end

end Sys2Proof.Machine

/-! PROOFS. Several stations at one instant: what the parts of a run's start leave of each entry, the notices they give and
the source events they hand over. -/

namespace Sys2Proof.Machine

/-! ### Notices where STALE is entered by a notice of its own -/

/-- From `s` to `t` the router heard the notices that the two states call for, but for STN-STALE, where `stale` says what
it heard: a run's start reports the entries that became STALE apart from the change itself (R59). -/
structure State.ToldWith (s t : State) (stale : StationId → List Notice) : Prop where
  hears : s.Hears t fun k i => if k = .stnStale then stale i else s.noticesOf t k i
  latched : ∀ i, (s.station i).Latched (t.station i)
  frozen : s.stats.frozen = true → t.stats.frozen = true

section
variable {s t u : State} {f g : StationId → List Notice}

theorem State.Told.withStale (h : s.Told t) : s.ToldWith t (s.noticesOf t .stnStale) where
  hears := h.hears.of_eq fun k i => by
    split
    · next own => rw [own]
    · rfl
  latched := h.latched
  frozen := h.frozen

/-- The notices of two parts are those of both, where a flag does not go back. -/
theorem noticesOf_join (h : ∀ i, (s.station i).Latched (t.station i)) (h' : ∀ i, (t.station i).Latched (u.station i))
    (froze : s.stats.frozen = true → t.stats.frozen = true) (froze' : t.stats.frozen = true → u.stats.frozen = true)
    {k : CauseKind} {i : StationId}
    (stale : k = .stnStale → ((t.station i).state == .stale) = ((s.station i).state == .stale) ∨
      ((t.station i).state == .stale) = ((u.station i).state == .stale))
    (ready : k = .raiseReady → (t.station i).ready = (s.station i).ready ∨ (t.station i).ready = (u.station i).ready) :
    s.noticesOf t k i ++ t.noticesOf u k i = s.noticesOf u k i := by
  cases k
  case raiseReady => exact flipped_append (ready rfl) _ _
  case stnStale => exact flipped_append (stale rfl) _ _
  case stnMonitor => simp only [State.noticesOf, ← newStatuses_add (h i) (h' i), List.replicate_add]
  case statsFreeze =>
    simp only [State.noticesOf, ← freezings_add froze froze', List.replicate_add]
    split <;> rfl
  all_goals rfl

theorem State.ToldWith.trans (h : s.ToldWith t f) (h' : t.ToldWith u g)
    (ready : ∀ i, (t.station i).ready = (s.station i).ready ∨ (t.station i).ready = (u.station i).ready) :
    s.ToldWith u fun i => f i ++ g i where
  hears := (h.hears.trans h'.hears).of_eq fun k i => by
    by_cases stale : k = .stnStale
    · simp only [stale, if_true]
    · simp only [stale, if_false]
      exact noticesOf_join h.latched h'.latched h.frozen h'.frozen (absurd · stale) fun _ => ready i
  latched i := (h.latched i).trans (h'.latched i)
  frozen := h'.frozen ∘ h.frozen

theorem State.ToldWith.of_eq (h : s.ToldWith t f) (same : ∀ i, f i = g i) : s.ToldWith t g :=
  (funext same : f = g) ▸ h

/-- STALE entered by a change of one entry, before its report: the change itself gives no notice of STN-STALE. -/
theorem State.Told.from_changed {m : State} (h : m.Told u) (router : m.router = s.router) (stats : m.stats = s.stats)
    (before : ∀ i, (m.station i).ready = (s.station i).ready ∧ (m.station i).statuses = (s.station i).statuses)
    (states : ∀ i, (u.station i).state = (m.station i).state) : s.ToldWith u fun _ => [] where
  hears := by
    obtain ⟨ns, heard, own⟩ := h.hears
    refine ⟨ns, router ▸ heard, fun k i => (own k i).trans ?_⟩
    cases k <;>
      simp only [State.noticesOf, before i, states i, flipped_same, newStatuses_congr (before i).2 rfl, if_true, if_false,
        reduceCtorEq, freezings_congr stats rfl]
  latched i n set := h.latched i n ((before i).2 ▸ set)
  frozen set := h.frozen (stats ▸ set)

/-- Notices do not see what else of the entries differs at the start. -/
theorem State.ToldWith.of_start {s' : State} (h : s'.ToldWith t f) (router : s'.router = s.router)
    (stats : s'.stats = s.stats) (alike : ∀ i, (s'.station i).ready = (s.station i).ready ∧
      (s'.station i).state = (s.station i).state ∧ (s'.station i).statuses = (s.station i).statuses) :
    s.ToldWith t f where
  hears := by
    obtain ⟨ns, heard, own⟩ := h.hears
    refine ⟨ns, router ▸ heard, fun k i => (own k i).trans ?_⟩
    rw [noticesOf_congr alike stats (fun i => ⟨rfl, rfl, rfl⟩) rfl]
  latched i n set := h.latched i n ((alike i).2.2 ▸ set)
  frozen set := h.frozen (stats ▸ set)

/-- Where the router heard of STN-STALE what the change of the entries calls for, it heard all notices. -/
theorem State.ToldWith.told (h : s.ToldWith t f) (stale : ∀ i, f i = s.noticesOf t .stnStale i) : s.Told t where
  hears := h.hears.of_eq fun k i => by
    split
    · next own => rw [own, stale]
    · rfl
  latched := h.latched
  frozen := h.frozen

end

/-! ### The parts of a run's start on one entry -/

/-- An entry that becomes STALE (R59, R85). -/
def Station.staled (e : Station) : Station := { e.worst with state := .stale, staleDuration := 0, ready := false }

/-- An entry that stays in STALE one run longer, with the DEAD of R60. -/
def Station.stayed (e : Station) (x : Params) : Station :=
  let d := saturate 255 e.staleDuration
  let u : Station := { e with staleDuration := d }
  if d = x.telWdead ∧ e.staleDuration ≠ d then
    { u.afterEvent x.monWindow .dead with ready := if u.wouldFault x.monWindow then false else e.ready }
  else u

/-- The source event of an entry that stays in STALE (R60, R111). -/
def Station.stayEvents (e : Station) (x : Params) (i : StationId) : List SourceEvent :=
  if saturate 255 e.staleDuration = x.telWdead ∧ e.staleDuration ≠ saturate 255 e.staleDuration then
    e.faultEvents x.monWindow i
  else []

section
variable {s : State} {i : StationId}

theorem becomeStale_eq (online : (s.station i).state = .online) :
    s.becomeStale i = (((s.updStation i fun e => { e with state := .stale }).cancelInterlock i).evalReady i).updStation i
      fun e => { e with staleDuration := 0 } := by
  rw [State.becomeStale, setEntryState_of_online online (by decide)]

theorem becomeStale_station (online : (s.station i).state = .online) :
    (s.becomeStale i).station i = (s.station i).staled := by
  have moved := setEntryState_station (s := s) (i := i) (new := .stale) (by rw [online]; decide)
  have unready : (s.setEntryState i .stale).readyCondition i = false :=
    readyCondition_of_not_online (by rw [moved]; exact (by decide : StationState.stale ≠ .online))
  rw [State.becomeStale, station_updStation, if_pos rfl, moved, unready]
  simp only [Station.moved, Station.staled, online, if_true]

theorem becomeStale_act (s : State) (i : StationId) :
    s.Act (s.becomeStale i) i ((s.station i).moveEvents .stale i) :=
  (setEntryState_act s i .stale).quiet (updStation_act _ i _)

theorem becomeStale_told (online : (s.station i).state = .online) : s.ToldWith (s.becomeStale i) fun _ => [] := by
  have closed := cancelInterlock_act (s.updStation i fun e => { e with state := .stale }) i
  obtain ⟨b, ended, flag⟩ := cancelInterlock_station (s.updStation i fun e => { e with state := .stale }) i
  have ready := evalReady_station ((s.updStation i fun e => { e with state := .stale }).cancelInterlock i) i
  have told : (s.updStation i fun e => { e with state := .stale }).Told (s.becomeStale i) := by
    rw [becomeStale_eq online]
    refine ((cancelInterlock_told _ i).join (evalReady_told _ i) closed ?_ (.inr ?_)).join
      (updStation_told _ i _ rfl rfl rfl) (closed.trans (evalReady_act _ i)) (.inr ?_) (.inr ?_)
    · rw [ready, ended]
      exact flag
    · rw [ready]
    · rw [station_updStation, if_pos rfl]
    · rw [station_updStation, if_pos rfl]
  have act := becomeStale_act s i
  refine told.from_changed rfl rfl (fun j => ?_) fun j => ?_ <;> rw [station_updStation] <;> split
  · next own => exact own ▸ ⟨rfl, rfl⟩
  · exact ⟨rfl, rfl⟩
  · next own => rw [← own, becomeStale_station online]; rfl
  · next other => rw [act.others j (Ne.symm other)]

theorem reportStale_act (s : State) (i : StationId) : s.Act (s.reportStale i) i [⟨.staleEntry, 0, stationPort i⟩] :=
  (setRouter_act s i (s.router.fire .stnStale i false)).trans (statEvent_act _ i _ _ _)

theorem reportStale_station (s : State) (i j : StationId) : (s.reportStale i).station j = s.station j := by
  simp [State.reportStale]

/-- The report of an entry that became STALE, whatever its state is just then. -/
theorem reportStale_told (s : State) (i : StationId) :
    s.ToldWith (s.reportStale i) fun j => if j = i then [.fires .stnStale i false] else [] where
  hears := by
    have counted := statEvent_told (s.fire .stnStale i) .staleEntry 0 (stationPort i)
    have fired : s.Hears (s.fire .stnStale i) (onlyPair .stnStale i (List.replicate 1 (.fires .stnStale i false))) :=
      .of_fired rfl
    refine (fired.trans counted.hears).of_eq fun k j => ?_
    by_cases stale : k = .stnStale
    · subst stale
      simp [onlyPair, State.noticesOf, flipped_same]
    · rw [if_neg stale, onlyPair, if_neg fun own => stale own.1, List.nil_append]
      rfl
  latched j := .of_same (by rw [reportStale_station])
  frozen h := statEvent_frozen (s := s.fire .stnStale i) _ _ _ h

theorem staleLonger_eq (s : State) (i : StationId) :
    s.staleLonger i =
      if saturate 255 (s.station i).staleDuration = s.params.telWdead ∧
          (s.station i).staleDuration ≠ saturate 255 (s.station i).staleDuration then
        (s.updStation i fun e => { e with staleDuration := saturate 255 (s.station i).staleDuration }).monitorEvent i .dead
      else s.updStation i fun e => { e with staleDuration := saturate 255 (s.station i).staleDuration } := by
  unfold State.staleLonger
  simp only [Bool.and_eq_true, decide_eq_true_eq, bne_iff_ne]
  rfl

/-- The longer stay of an entry that is STALE: what it leaves, the source event and the notices. -/
theorem staleLonger_part (stale : (s.station i).state = .stale) :
    (s.staleLonger i).station i = (s.station i).stayed s.params ∧
      s.Act (s.staleLonger i) i ((s.station i).stayEvents s.params i) ∧ s.Told (s.staleLonger i) := by
  have counted := updStation_act s i fun e => { e with staleDuration := saturate 255 (s.station i).staleDuration }
  have told := updStation_told s i (fun e => { e with staleDuration := saturate 255 (s.station i).staleDuration })
    rfl rfl rfl
  have here : (s.updStation i fun e => { e with staleDuration := saturate 255 (s.station i).staleDuration }).station i =
      { s.station i with staleDuration := saturate 255 (s.station i).staleDuration } := by
    rw [station_updStation, if_pos rfl]
  have closed : ((s.updStation i fun e => { e with staleDuration := saturate 255 (s.station i).staleDuration }).station
      i).state = .online →
      ((s.updStation i fun e => { e with staleDuration := saturate 255 (s.station i).staleDuration }).station
        i).interlock = none := fun online => by
    rw [here] at online
    exact absurd (stale.symm.trans online) (by decide)
  rw [staleLonger_eq, Station.stayed, Station.stayEvents]
  split
  · have entry := monitorEvent_station .dead closed
    have act := monitorEvent_act .dead closed
    rw [here] at entry act
    exact ⟨entry, counted.trans act, told.join (monitorEvent_told ..) counted (.inl (by rw [here])) (.inl (by rw [here]))⟩
  · exact ⟨here, counted, told⟩

end

/-! ### All parts of a run's start -/

/-- The parts of a run's start on the entries `g` with one more run begun, where `old` says which were STALE before. -/
def State.ageingParts (g : State) (old : StationId → Bool) : List (List (StationId × AgeingPart)) :=
  ((stationIds.filter g.tooOld).flatMap fun i => [[(i, .becomes)], [(i, .reports)]]) ++
    (stationIds.filter old).map fun i => [(i, .longer)]

theorem ageStations_eq (s : State) :
    s.ageStations = (s.updStations fun _ e => e.grow).together State.ageingPart
      ((s.updStations fun _ e => e.grow).ageingParts fun i => (s.station i).state == .stale) := rfl

section
variable {g : State} {old : StationId → Bool}

theorem mem_ageingParts {x : StationId × AgeingPart} (h : x ∈ (g.ageingParts old).flatten) :
    match x.2 with
    | .becomes | .reports => g.tooOld x.1 = true
    | .longer => old x.1 = true := by
  obtain ⟨i, part⟩ := x
  simp only [State.ageingParts, List.flatten_append, List.mem_append, List.mem_flatten, List.mem_flatMap, List.mem_map,
    List.mem_filter] at h
  rcases h with ⟨l, ⟨j, ⟨-, late⟩, mem⟩, here⟩ | ⟨l, ⟨j, ⟨-, stale⟩, rfl⟩, here⟩
  · rcases List.mem_cons.1 mem with rfl | mem
    · obtain ⟨rfl, rfl⟩ := Prod.mk.inj (List.mem_singleton.1 here)
      exact late
    · obtain rfl := List.mem_singleton.1 mem
      obtain ⟨rfl, rfl⟩ := Prod.mk.inj (List.mem_singleton.1 here)
      exact late
  · obtain ⟨rfl, rfl⟩ := Prod.mk.inj (List.mem_singleton.1 here)
    exact stale

theorem ageingParts_mem {i : StationId} (part : AgeingPart)
    (h : match part with
      | .becomes | .reports => g.tooOld i = true
      | .longer => old i = true) : (i, part) ∈ (g.ageingParts old).flatten := by
  simp only [State.ageingParts, List.flatten_append, List.mem_append, List.mem_flatten, List.mem_flatMap, List.mem_map,
    List.mem_filter]
  cases part with
  | becomes => exact .inl ⟨_, ⟨i, ⟨mem_stationIds i, h⟩, List.mem_cons_self ..⟩, List.mem_singleton_self _⟩
  | reports =>
    exact .inl ⟨_, ⟨i, ⟨mem_stationIds i, h⟩, List.mem_cons_of_mem _ (List.mem_singleton_self _)⟩, List.mem_singleton_self _⟩
  | longer => exact .inr ⟨_, ⟨i, ⟨mem_stationIds i, h⟩, rfl⟩, List.mem_singleton_self _⟩

/-- The parts of a run's start, list after list. -/
theorem ageingParts_flatten (g : State) (old : StationId → Bool) : (g.ageingParts old).flatten =
    ((stationIds.filter g.tooOld).flatMap fun i => [(i, AgeingPart.becomes), (i, AgeingPart.reports)]) ++
      (stationIds.filter old).map fun i => (i, AgeingPart.longer) := by
  have pairs : ∀ l : List StationId,
      (l.flatMap fun i => [[(i, AgeingPart.becomes)], [(i, AgeingPart.reports)]]).flatten =
        l.flatMap fun i => [(i, AgeingPart.becomes), (i, AgeingPart.reports)] := fun l => by
    induction l with
    | nil => rfl
    | cons i l ih => simp [ih]
  have singles : ∀ l : List StationId,
      (l.map fun i => [(i, AgeingPart.longer)]).flatten = l.map fun i => (i, AgeingPart.longer) := fun l => by
    induction l with
    | nil => rfl
    | cons i l ih => simp [ih]
  rw [State.ageingParts, List.flatten_append, pairs, singles]

theorem ageingParts_nodup (g : State) (old : StationId → Bool) : (g.ageingParts old).flatten.Nodup := by
  have ids : stationIds.Nodup := by decide
  have first : ((stationIds.filter g.tooOld).flatMap fun i => [(i, AgeingPart.becomes), (i, AgeingPart.reports)]).Nodup := by
    rw [List.nodup_flatMap]
    refine ⟨fun i _ => by simp, (ids.filter _).imp fun {a b} ne => ?_⟩
    simp [Function.onFun, List.disjoint_left, ne]
  rw [ageingParts_flatten, List.nodup_append]
  refine ⟨first, (ids.filter _).map fun a b same => congrArg Prod.fst same, fun x hx y hy same => ?_⟩
  obtain ⟨j, -, rfl⟩ := List.mem_map.1 hy
  obtain ⟨i, -, mem⟩ := List.mem_flatMap.1 hx
  simp [same] at mem

end

/-- A part that is next to be done is not done yet, where no part stands twice. -/
theorem Interleaves.next_fresh {α : Type} {parts : List (List α)} {done rest : List α} {x : α}
    (nodup : parts.flatten.Nodup) (h : Interleaves parts (done ++ x :: rest)) :
    x ∉ done ∧ x ∈ parts.flatten ∧ ∀ y ∈ done, y ∈ parts.flatten := by
  have perm := h.perm
  have all := perm.nodup_iff.2 nodup
  rw [List.nodup_append] at all
  exact ⟨fun mem => all.2.2 x mem x (List.mem_cons_self ..) rfl, perm.subset (by simp), fun y mem => perm.subset (by simp [mem])⟩

/-- An entry of the grown table after some of the parts of a run's start. -/
def State.agedEntry (g : State) (done : List (StationId × AgeingPart)) (i : StationId) : Station :=
  if (i, .becomes) ∈ done then (g.station i).staled
  else if (i, .longer) ∈ done then (g.station i).stayed g.params
  else g.station i

/-- What the router has heard of STN-STALE after some of the parts of a run's start. -/
def State.agedStale (g : State) (done : List (StationId × AgeingPart)) (i : StationId) : List Notice :=
  (if (i, .reports) ∈ done then [.fires .stnStale i false] else []) ++
    if (i, .longer) ∈ done then flipped .stnStale i true ((g.agedEntry done i).state == .stale) else []

/-- The source events of a part of a run's start. -/
def State.ageingEvents (g : State) (x : StationId × AgeingPart) : List SourceEvent :=
  match x.2 with
  | .becomes => (g.station x.1).moveEvents .stale x.1
  | .reports => [⟨.staleEntry, 0, stationPort x.1⟩]
  | .longer => (g.station x.1).stayEvents g.params x.1

/-- The state after some of the parts of a run's start. -/
structure State.AgedBy (g t : State) (done : List (StationId × AgeingPart)) : Prop where
  params : t.params = g.params
  entries : ∀ i, t.station i = g.agedEntry done i
  told : g.ToldWith t (g.agedStale done)
  stats : t.stats = (g.statEvents (done.flatMap g.ageingEvents)).stats

section
variable {g t : State} {old : StationId → Bool} {done rest : List (StationId × AgeingPart)}

theorem agedBy_start (g : State) (n : Nat) : g.AgedBy { g with choices := n } [] where
  params := rfl
  entries i := by simp [State.agedEntry]; rfl
  told :=
    have same : g.Told { g with choices := n } := .of_same rfl rfl fun _ => ⟨rfl, rfl, rfl⟩
    same.withStale.of_eq fun _ => flipped_same ..
  stats := rfl

theorem flatMap_ageingEvents (g : State) (done : List (StationId × AgeingPart)) (x : StationId × AgeingPart) :
    (done ++ [x]).flatMap g.ageingEvents = done.flatMap g.ageingEvents ++ g.ageingEvents x := by
  simp

/-- A part on one station adds its own source events. -/
theorem State.AgedBy.stats_next (h : g.AgedBy t done) {u : State} {x : StationId × AgeingPart}
    (act : t.Act u x.1 (g.ageingEvents x)) :
    u.stats = (g.statEvents ((done ++ [x]).flatMap g.ageingEvents)).stats := by
  rw [flatMap_ageingEvents, statEvents_append, act.stats]
  exact statEvents_stats_congr h.stats _

theorem agedEntry_append_other {x : StationId × AgeingPart} {j : StationId} (other : j ≠ x.1) :
    g.agedEntry (done ++ [x]) j = g.agedEntry done j := by
  obtain ⟨i, part⟩ := x
  have ne : ∀ q, (j, q) ≠ (i, part) := fun q same => other (Prod.mk.inj same).1
  simp [State.agedEntry, ne]

theorem agedStale_append_other {x : StationId × AgeingPart} {j : StationId} (other : j ≠ x.1) :
    g.agedStale (done ++ [x]) j = g.agedStale done j := by
  unfold State.agedStale
  rw [agedEntry_append_other other]
  obtain ⟨i, part⟩ := x
  have ne : ∀ q, (j, q) ≠ (i, part) := fun q same => other (Prod.mk.inj same).1
  simp [ne]

theorem agedBy_becomes {i : StationId} (h : g.AgedBy t done) (online : (g.station i).state = .online)
    (fresh : (i, .becomes) ∉ done) (short : (i, .longer) ∉ done) :
    g.AgedBy (t.becomeStale i) (done ++ [(i, .becomes)]) := by
  have entry : t.station i = g.station i := by rw [h.entries, State.agedEntry, if_neg fresh, if_neg short]
  have act := becomeStale_act t i
  have events := act
  rw [entry] at events
  have online' : (t.station i).state = .online := by rw [entry, online]
  refine ⟨act.params.trans h.params, fun j => ?_, ?_, h.stats_next events⟩
  · by_cases own : j = i
    · subst own
      rw [becomeStale_station online', entry, State.agedEntry, if_pos (by simp)]
    · rw [act.others j own, h.entries, agedEntry_append_other own]
  · refine (h.told.trans (becomeStale_told online') fun j => ?_).of_eq fun j => ?_
    · by_cases own : j = i
      · exact .inl (by rw [own, entry])
      · exact .inr (by rw [act.others j own])
    · by_cases own : j = i
      · subst own
        simp [State.agedStale, short]
      · rw [agedStale_append_other own, List.append_nil]

theorem agedBy_reports {i : StationId} (h : g.AgedBy t done) (fresh : (i, .reports) ∉ done) (short : (i, .longer) ∉ done) :
    g.AgedBy (t.reportStale i) (done ++ [(i, .reports)]) := by
  have act := reportStale_act t i
  refine ⟨act.params.trans h.params, fun j => ?_, ?_, h.stats_next act⟩
  · rw [reportStale_station, h.entries]
    simp [State.agedEntry]
  · refine (h.told.trans (reportStale_told t i) fun j => .inr (by rw [reportStale_station])).of_eq fun j => ?_
    by_cases own : j = i
    · subst own
      simp [State.agedStale, fresh, short]
    · rw [agedStale_append_other own, if_neg own, List.append_nil]

theorem agedBy_longer {i : StationId} (h : g.AgedBy t done) (stale : (g.station i).state = .stale)
    (late : (i, .becomes) ∉ done) (unreported : (i, .reports) ∉ done) (fresh : (i, .longer) ∉ done) :
    g.AgedBy (t.staleLonger i) (done ++ [(i, .longer)]) := by
  have entry : t.station i = g.station i := by rw [h.entries, State.agedEntry, if_neg late, if_neg fresh]
  obtain ⟨left, act, told⟩ := staleLonger_part (s := t) (i := i) (by rw [entry, stale])
  rw [entry, h.params] at left act
  have after : g.agedEntry (done ++ [(i, .longer)]) i = (g.station i).stayed g.params := by
    simp [State.agedEntry, late]
  refine ⟨act.params.trans h.params, fun j => ?_, ?_, h.stats_next act⟩
  · by_cases own : j = i
    · rw [own, left, after]
    · rw [act.others j own, h.entries, agedEntry_append_other own]
  · refine (h.told.trans told.withStale fun j => ?_).of_eq fun j => ?_
    · by_cases own : j = i
      · exact .inl (by rw [own, entry])
      · exact .inr (by rw [act.others j own])
    · by_cases own : j = i
      · subst own
        simp only [State.agedStale, State.noticesOf, entry, stale, left, after]
        simp [unreported, fresh]
      · rw [agedStale_append_other own, State.noticesOf, act.others j own, flipped_same, List.append_nil]

/-- The parts of a run's start together: every entry aged, the source events in the order the parts came, and no choice
used up unless the unit froze. -/
theorem ageingParts_together (g : State) (disjoint : ∀ i, old i = true → (g.station i).state = .stale) :
    ∃ order, order.Perm (g.ageingParts old).flatten ∧
      g.AgedBy (g.together State.ageingPart (g.ageingParts old)) order ∧
      g.CountsTogether (g.together State.ageingPart (g.ageingParts old))
        ((g.ageingParts old).map (·.flatMap g.ageingEvents)) ∧
      (g.stats.frozen = true ∨ (g.together State.ageingPart (g.ageingParts old)).stats.frozen = false →
        (g.together State.ageingPart (g.ageingParts old)).choices = g.choices) := by
  obtain ⟨order, whole, aged, counts, choices⟩ := together_steps (s := g) (act := State.ageingPart)
    (parts := g.ageingParts old) g.ageingEvents (P := fun done t => g.AgedBy t done) (agedBy_start g)
    (fun {done x rest t} whole h => by
      obtain ⟨fresh, here, before⟩ := whole.next_fresh (ageingParts_nodup g old)
      have online : ∀ i, g.tooOld i = true → (g.station i).state = .online := fun i late => by
        simp only [State.tooOld, Bool.and_eq_true, beq_iff_eq] at late
        exact late.1
      have mine := mem_ageingParts here
      obtain ⟨i, part⟩ := x
      cases part with
      | becomes =>
        refine agedBy_becomes h (online i mine) fresh fun longer => ?_
        have stale := disjoint i (mem_ageingParts (before _ longer))
        rw [online i mine] at stale
        cases stale
      | reports =>
        refine agedBy_reports h fresh fun longer => ?_
        have stale := disjoint i (mem_ageingParts (before _ longer))
        rw [online i mine] at stale
        cases stale
      | longer =>
        refine agedBy_longer h (disjoint i mine) (fun late => ?_) (fun late => ?_) fresh <;>
        · have on := online i (mem_ageingParts (before _ late))
          rw [disjoint i mine] at on
          cases on)
    (fun h => h.stats) fun t x => by simp
  exact ⟨order, whole.perm, aged, counts, choices⟩

end

end Sys2Proof.Machine

/-! PROOFS. Every step keeps the laws of the station entries. -/

namespace Sys2Proof.Machine

section
variable {s : State} {i : StationId} {e : Station}

/-! ### A run's start -/

theorem grow_wf (h : e.Wf) : e.grow.Wf := by
  unfold Station.grow
  split
  · exact h
  · next present =>
    exact
      { h with
        absent := fun absent => absurd absent present
        ranges := ⟨Nat.min_le_left _ _, h.ranges.2⟩ }

theorem staled_wf (h : e.Wf) (online : e.state = .online) : e.staled.Wf := by
  have unparked := h.unparked (by rw [online]; decide)
  have empty : e.holding = 0 := by
    by_contra held
    have faulted := (h.faulted (by rw [online]; rfl)).2 held
    rw [online] at faulted
    cases faulted
  have moved := (h.sound.movedLive unparked (new := .stale) (by decide) (iff_of_false (by decide) (not_not.2 empty)))
  have same : e.moved .stale = { e.worst with state := .stale } := by
    simp only [Station.moved, online, if_true, reduceCtorEq, if_false]
    unfold Station.worst
    split <;> rfl
  rw [same] at moved
  exact { moved with fresh := fun _ => rfl, ranges := ⟨moved.ranges.1, moved.ranges.2.1, Nat.zero_le _⟩ }

theorem afterEvent_eq_onEvent (closed : e.interlock = none) (mode : MonMode) (ev : MonEvent) :
    e.afterEvent mode ev = e.onEvent mode ev := by
  unfold Station.onEvent
  split
  · next fault => rw [afterEvent_of_fault ev (fun _ => closed) fault]
  · next calm => rw [afterEvent_of_no_fault ev (by simpa using calm)]

theorem stayed_wf (h : e.Wf) (stale : e.state = .stale) (x : Params) : (e.stayed x).Wf := by
  have longer : ({ e with staleDuration := saturate 255 e.staleDuration } : Station).Wf :=
    { h with
      fresh := fun other => absurd stale other
      ranges := ⟨h.ranges.1, h.ranges.2.1, Nat.min_le_left _ _⟩ }
  unfold Station.stayed
  simp only
  split
  · have same := afterEvent_eq_onEvent (e := { e with staleDuration := saturate 255 e.staleDuration })
      (h.sound.closed (by rw [stale]; decide)) x.monWindow .dead
    rw [wf_ready, same]
    exact longer.onEvent _ _
  · exact longer

theorem ageStations_wf (h : s.StationsWf) : s.ageStations.StationsWf := by
  have grown : ∀ i, (s.updStations fun _ e => e.grow).station i = (s.station i).grow := fun i => by simp
  have stays : ∀ i, ((s.station i).state == .stale) = true → ((s.updStations fun _ e => e.grow).station i).state = .stale :=
    fun i stale => by
      rw [grown, Station.grow]
      split
      · exact beq_iff_eq.1 stale
      · exact beq_iff_eq.1 stale
  obtain ⟨order, perm, aged, -⟩ := ageingParts_together (s.updStations fun _ e => e.grow) stays
  rw [ageStations_eq]
  intro i
  have wf : ((s.updStations fun _ e => e.grow).station i).Wf := grown i ▸ grow_wf (h i)
  rw [aged.entries, State.agedEntry]
  split
  · next late =>
    have tooOld := mem_ageingParts (perm.subset late)
    simp only [State.tooOld, Bool.and_eq_true, beq_iff_eq] at tooOld
    exact staled_wf wf tooOld.1
  · split
    · next longer => exact stayed_wf wf (stays i (mem_ageingParts (perm.subset longer))) _
    · exact wf

theorem ageStorage_stations (s : State) : s.ageStorage.stations = s.stations := by simp

theorem startRun_wf (h : s.StationsWf) : s.startRun.StationsWf := by
  obtain ⟨n, started⟩ := startRun_eq s
  intro i
  have entry : s.startRun.station i = s.ageStations.station i := by
    rw [started]
    exact congrArg (fun v => look v i) (ageStorage_stations s.ageStations)
  rw [entry]
  exact ageStations_wf h i

/-! ### Every step -/

theorem State.StationsWf.congr {t : State} (h : s.StationsWf) (stations : t.stations = s.stations) : t.StationsWf := fun i =>
  station_congr stations i ▸ h i

theorem serveBody_wf (h : s.StationsWf) (p : Port) (r : Request) : (serveBody s p r).1.StationsWf := by
  by_cases halts : r.body = .engHalt
  · obtain ⟨tag, body⟩ := r
    obtain rfl : body = .engHalt := halts
    refine supervisorOnly_keeps h ?_ p
    unfold serveEngHalt
    simp only
    split
    · exact h
    · exact (haltEngine_follows s).wf h
  cases writes : r.body.writesCounters with
  | false => exact (serveBody_follows s p halts writes).wf h
  | true =>
    obtain ⟨tag, body⟩ := r
    obtain ⟨action, rfl⟩ := Body.statCtrl_of_writes writes
    exact supervisorOnly_keeps h (h.congr (serveStatCtrl_frame s action).2.2.2.1) p

theorem stationsKept : Kept State.StationsWf State.StationsWf fun _ => True :=
  .of_blocks (fun h same => h.congr same.stations) (fun x m p h => (statEvent_follows _ x m p).wf h)
    (fun p b h => (takingEnds_follows _ p b).wf h) (fun p r h => serveBody_wf h p r)
    (fun p h => (resetBehind_follows _ p).wf h)

theorem reset_stationsWf : State.reset.StationsWf := fun i => by
  have entry : State.reset.station i = Station.reset := look_replicate ..
  rw [entry]
  constructor <;> decide

end

end Sys2Proof.Machine

/-! PROOFS. Every step keeps the laws of the published record. -/

namespace Sys2Proof.Machine

/-! ### The queues and the envelope of a run -/

section
variable {q : Extrema} {top : Nat}

theorem Extrema.Below.queues (h : q.Below top) :
    (∀ e ∈ q.shortMin, e.value ≤ top) ∧ (∀ e ∈ q.shortMax, e.value ≤ top) ∧ (∀ e ∈ q.longMin, e.value ≤ top) ∧
      ∀ e ∈ q.longMax, e.value ≤ top := by
  refine ⟨fun e m => h e ?_, fun e m => h e ?_, fun e m => h e ?_, fun e m => h e ?_⟩ <;> simp [m]

theorem mem_updateQueue {dominated : Nat → Nat → Bool} {n : Nat} {k : BitVec 32} {p : Nat} {l : List QueueEntry}
    {e : QueueEntry} (h : e ∈ updateQueue dominated n k p l) : e ∈ l ∨ e.value = p := by
  unfold updateQueue at h
  simp only [List.mem_append, List.mem_reverse, List.mem_singleton] at h
  rcases h with kept | rfl
  · exact .inl ((List.dropWhile_sublist _).mem (List.mem_reverse.1 ((List.dropWhile_sublist _).mem kept)))
  · exact .inr rfl

theorem updateExtrema_below (h : q.Below top) (x : Params) (k : BitVec 32) {p : Nat} (hp : p ≤ top) :
    (updateExtrema x k p q).Below top := by
  obtain ⟨shortMin, shortMax, longMin, longMax⟩ := h.queues
  have each : ∀ {dominated n} {l : List QueueEntry}, (∀ e ∈ l, e.value ≤ top) →
      ∀ e ∈ updateQueue dominated n k p l, e.value ≤ top := fun below e m =>
    (mem_updateQueue m).elim (below e) fun new => new ▸ hp
  intro e m
  simp only [updateExtrema, List.mem_append] at m
  rcases m with ((m | m) | m) | m
  · exact each shortMin e m
  · exact each shortMax e m
  · exact each longMin e m
  · exact each longMax e m

theorem front_le {l : List QueueEntry} (h : ∀ e ∈ l, e.value ≤ top) : front l ≤ top := by
  unfold front
  split
  · exact Nat.zero_le _
  · next e _ => exact h e (List.mem_cons_self ..)

/-- The envelope is in order and within the plant rating (R22, R23). -/
theorem envelopeOf_lawful (x : Params) (h : q.Below x.plantRating) :
    (envelopeOf x q).lower ≤ (envelopeOf x q).upper ∧ (envelopeOf x q).upper ≤ x.plantRating ∧
      ((envelopeOf x q).collapsed = false → (envelopeOf x q).gap = 0) ∧
      ((envelopeOf x q).collapsed = true → 0 < (envelopeOf x q).gap ∧ (envelopeOf x q).lower = (envelopeOf x q).upper) := by
  obtain ⟨-, shortMax, -, longMax⟩ := h.queues
  have short := front_le shortMax
  have long := front_le longMax
  have upper : upperBound x q ≤ x.plantRating := Nat.min_le_right _ _
  have lower : lowerBound x q ≤ x.plantRating := by
    unfold lowerBound
    omega
  unfold envelopeOf envelopeOfBounds
  split
  · next order => exact ⟨order, upper, fun _ => rfl, (fun no => by cases no)⟩
  · next crossed =>
    refine ⟨Nat.le_refl _, ?_, (fun no => by cases no), fun _ => ⟨?_, rfl⟩⟩ <;> simp only <;> omega

end

theorem sampleOf_le (run : RunInputs) : (sampleOf run).value ≤ run.params.plantRating := by
  unfold sampleOf clamp
  simp only
  split
  · simp
  · split <;> omega

/-! ### The decision of a run -/

/-- A shortfall and an excess do not come together (R35). -/
theorem decide78_oneSided {l u f u0 : Nat} (hlu : l ≤ u) (hf : u0 ≤ f) (bPref : Int) (dis chg ratings : Nat) :
    (decide78 l u f u0 bPref dis chg ratings).shortfall = 0 ∨ (decide78 l u f u0 bPref dis chg ratings).excess = 0 := by
  by_cases short : (dispatchCase (l : Int) u f bPref dis chg).2 = .short
  · right
    have order : (l : Int) ≤ u := by exact_mod_cast hlu
    obtain ⟨below, beyond⟩ := (dispatchCase_eq_short_iff order).1 short
    refine (decide78_of_room ?_).2.1
    rw [decide78_b, dispatchCase_short order below beyond]
    omega
  · exact .inl (if_neg short)

/-- Without limits the battery's setpoint is 0 (R28, R40). -/
theorem decide78_b_of_no_limits {l u f u0 : Nat} (hlu : l ≤ u) (ratings : Nat) :
    (decide78 l u f u0 0 0 0 ratings).b = 0 := by
  rw [decide78_b]
  have order : (l : Int) ≤ u := by exact_mod_cast hlu
  have limits := dispatchCase_within_limits (f := (f : Int)) (bPref := 0) (dis := 0) (chg := 0) order (by simp) (by simp)
  simp only [Nat.cast_zero]
  omega

theorem preference_of_no_limits (x : Params) (soc : Nat) : preference x soc 0 0 = 0 := by
  unfold preference clamp
  (repeat' split) <;> omega

/-- The record of a run whose queues and snapshot are in range is lawful. -/
theorem recordOf_lawful (run : RunInputs) {q : Extrema} (below : q.Below run.params.plantRating)
    (avail : ∀ i, (look run.stations i).avail ≤ (look run.stations i).rating) :
    (recordOf run (sampleOf run) q).Lawful := by
  obtain ⟨order, top, gapOpen, gapShut⟩ := envelopeOf_lawful run.params below
  refine
    { band := ⟨order, top⟩, sampled := sampleOf_le run, gapOpen := gapOpen, gapShut := gapShut, exact := ?_, outside := ?_
      oneSided := decide78_oneSided order (Nat.le_add_left ..) _ _ _ (ratingSum run.stations), noBattery := fun none => ?_ }
  · have sum := sum_offer avail (recordOf_allowance_le run (sampleOf run) q)
    rw [← sumStations_mask] at sum
    refine Eq.trans (congrArg sumStations (funext fun i => ?_)) sum
    simp only [recordOf, look_tabulate, look_offersOf]
    split <;> rfl
  · intro i off
    simp only [recordOf, look_tabulate] at off
    simp only [recordOf, look_offersOf, off, Bool.false_eq_true, if_false]
  · have offline : runLimits run = (0, 0) := by
      have state : (run.storage.state == .online) = false := none
      simp [runLimits, effectiveLimits_eq, state]
    simp only [recordOf, offline, preference_of_no_limits]
    exact decide78_b_of_no_limits order _

/-! ### The law of the record -/

section
variable {s t : State}

theorem State.RecordWf.congr (h : s.RecordWf) (published : t.published = s.published) (engine : t.engine = s.engine)
    (rating : t.params.plantRating = s.params.plantRating) : t.RecordWf where
  record := published ▸ h.record
  queues live := by
    rw [halted_congr engine] at live
    rw [engine, rating]
    exact h.queues live
  run := by
    rw [engine, rating]
    exact h.run

theorem cleared_lawful : Published.cleared.Lawful := by
  constructor <;> decide

/-- Nothing but the record is in question while the engine is HALTED. -/
theorem State.RecordWf.of_halted (halted : t.halted = true) (record : t.published.Lawful) : t.RecordWf where
  record := record
  queues live := by
    rw [halted] at live
    cases live
  run run flight := by
    simp [State.halted, flight] at halted

theorem storeParam_plantRating {id : Nat} (other : id ≠ 6) (index : Nat) (value : BitVec 32) :
    (storeParam s id index value).params.plantRating = s.params.plantRating := by
  unfold storeParam
  simp only
  split
  case h_6 => exact absurd rfl other
  case h_17 => split <;> rfl
  case h_18 => split <;> simp
  case h_26 =>
    unfold Params.writeMode
    split <;> rfl
  case h_28 => simp
  case h_29 => split <;> simp
  case h_30 => split <;> rfl
  case h_31 => split <;> rfl
  all_goals rfl

theorem serveParamSet_recordWf (h : s.RecordWf) (id index : Byte) (value : BitVec 32) :
    (serveParamSet s id index value).1.RecordWf := by
  rcases serveParamSet_cases s id index value with same | ⟨haltedOnly, -, store⟩
  · rw [same]
    exact h
  · rw [store]
    have engine : (storeParam s id.toNat index.toNat value).engine = s.engine := by simp
    have published : (storeParam s id.toNat index.toNat value).published = s.published := by simp
    by_cases rating : id.toNat = 6
    · have halted := haltedOnly (by rw [rating]; rfl)
      exact .of_halted ((halted_congr engine).trans halted) (published ▸ h.record)
    · exact h.congr published engine (storeParam_plantRating rating ..)

theorem serveEngStart_recordWf (h : s.RecordWf) : (serveEngStart s).1.RecordWf := by
  unfold serveEngStart
  split
  · dsimp only
    have published : s.startEngine.published = Published.cleared := by simp [State.startEngine]
    refine ⟨published ▸ cleared_lawful, fun _ => ?_, fun run flight => ?_⟩
    · rw [startEngine_engine]
      exact fun e m => by simp [Extrema.empty] at m
    · rw [startEngine_engine] at flight
      cases flight
  · exact h

theorem haltEngine_halted (s : State) : s.haltEngine.halted = true := by
  simp only [State.halted, haltEngine_engine]

theorem serveEngHalt_recordWf (h : s.RecordWf) : (serveEngHalt s).1.RecordWf := by
  unfold serveEngHalt
  simp only
  split
  · exact h
  · have published : s.haltEngine.published = Published.cleared := by simp [State.haltEngine, State.stopEngine]
    exact .of_halted (haltEngine_halted s) (published ▸ cleared_lawful)

theorem serveMeter_recordWf (h : s.RecordWf) (value : BitVec 32) (tag : BitVec 16) : (serveMeter s value tag).1.RecordWf := by
  unfold serveMeter
  split
  · exact h
  split
  · exact h
  · exact ⟨h.record, h.queues, h.run⟩

theorem serveBody_recordWf (h : s.RecordWf) (p : Port) (r : Request) : (serveBody s p r).1.RecordWf := by
  obtain ⟨tag, body⟩ := r
  cases body
  case paramSet id index value => exact supervisorOnly_keeps h (serveParamSet_recordWf h id index value) p
  case meter value tag => exact supervisorOnly_keeps h (serveMeter_recordWf h value tag) p
  case engStart => exact supervisorOnly_keeps h (serveEngStart_recordWf h) p
  case engHalt => exact supervisorOnly_keeps h (serveEngHalt_recordWf h) p
  all_goals
    refine h.congr ?_ ?_ (congrArg Params.plantRating ?_) <;> simp only [serveBody, supervisorOnly] <;>
      (repeat' split) <;> simp [answered, roleRefused]

/-- A run's start fixes the inputs of the next record from entries that keep their laws. -/
theorem startRun_recordWf (h : s.RecordWf) (stations : s.StationsWf) (running : s.engine.run = .running) :
    s.startRun.RecordWf := by
  obtain ⟨n, started⟩ := startRun_eq s
  have aged : s.aged.StationsWf := (ageStations_wf stations).congr (ageStorage_stations _)
  have published : s.startRun.published = s.published := by simp
  have params : s.startRun.params = s.params := by simp
  have engine := congrArg State.engine started
  refine ⟨published ▸ h.record, fun _ => ?_, fun run flight => ?_⟩
  · rw [engine, params]
    exact h.queues (by simp only [State.halted, running])
  · rw [engine] at flight
    obtain rfl : s.inputs (s.snapshotStates s.aged).1 = run := RunState.inFlight.inj flight
    refine ⟨congrArg Params.plantRating params.symm, fun i => ?_⟩
    simp only [State.inputs, State.stationSnapshot, look_tabulate]
    exact (aged i).availBound

theorem publish_published (s : State) (x : RunResult) : (s.publish x).published = x.record := by
  simp [State.publish, State.commitRun]

theorem publish_recordWf {run : RunInputs} (h : s.RecordWf) (flight : s.engine.run = .inFlight run) :
    (s.publish (resultOf run s.engine.queues s.published)).RecordWf := by
  have params := (publish_frame s (resultOf run s.engine.queues s.published)).1
  have engine := publish_engine s (resultOf run s.engine.queues s.published)
  obtain ⟨rating, avail⟩ := h.run run flight
  have before : s.engine.queues.Below run.params.plantRating := by
    rw [rating]
    exact h.queues (by simp only [State.halted, flight])
  have below := updateExtrema_below before run.params run.number (sampleOf_le run)
  refine ⟨?_, fun _ => ?_, fun run' flight' => ?_⟩
  · rw [publish_published]
    exact recordOf_lawful run below avail
  · rw [engine, params, ← rating]
    exact below
  · rw [engine] at flight'
    cases flight'

/-- The laws of the entries and of the record together: a run's start needs the former for the latter. -/
def State.StationLaws (s : State) : Prop := s.StationsWf ∧ s.RecordWf

theorem stationLawsOfParts : Kept State.StationLaws State.StationLaws fun _ => True :=
  .of_blocks
    (fun h same => ⟨h.1.congr same.stations, h.2.congr same.published same.engine (congrArg Params.plantRating same.params)⟩)
    (fun x m p h => ⟨(statEvent_follows _ x m p).wf h.1, h.2.congr (by simp) (by simp) (by simp)⟩)
    (fun p b h => ⟨(takingEnds_follows _ p b).wf h.1, h.2.congr (by simp) (by simp) (by simp)⟩)
    (fun p r h => ⟨serveBody_wf h.1 p r, serveBody_recordWf h.2 p r⟩)
    (fun p h => ⟨(resetBehind_follows _ p).wf h.1, h.2.congr (by simp) (by simp) (by simp)⟩)

theorem reset_recordWf : State.reset.RecordWf := .of_halted rfl cleared_lawful

/-- Settles O57: the parts of the commands keep both laws (`stationLawsOfParts`), a run's start ages the entries within
them (`ageStations_wf`), and a publication's record is lawful for inputs in range (`recordOf_lawful`). -/
theorem stationLawsKept : Obligations.StationLawsKept := fun _ _ stations record e =>
  stationLawsOfParts.keeps_step (fun _ h => ⟨h.1.congr rfl, h.2.congr rfl rfl rfl⟩)
    (fun _ e => (powerOn_eq e) ▸ ⟨reset_stationsWf.congr rfl, reset_recordWf.congr rfl rfl rfl⟩)
    (fun h running => ⟨startRun_wf h.1, startRun_recordWf h.2 h.1 running⟩)
    (fun h flight => ⟨(publish_follows _ _).wf h.1, publish_recordWf h.2 flight⟩) ⟨stations, record⟩ e

end

end Sys2Proof.Machine

/-! PROOFS. The halt of the engine: every interlock ends by the worst case and every flag is found clear. -/

namespace Sys2Proof.Machine

/-! ### Raise-ready of all stations -/

theorem evalReady_list_told {l : List StationId} (nodup : l.Nodup) (s : State) :
    s.Told (l.foldl State.evalReady s) ∧ ∀ j, j ∉ l → (l.foldl State.evalReady s).station j = s.station j := by
  induction l generalizing s with
  | nil => exact ⟨.of_same rfl rfl fun _ => ⟨rfl, rfl, rfl⟩, fun _ _ => rfl⟩
  | cons i l ih =>
    obtain ⟨notIn, nodup⟩ := List.nodup_cons.1 nodup
    obtain ⟨told, others⟩ := ih nodup (s.evalReady i)
    refine ⟨(evalReady_told s i).trans told (fun j => ?_) fun j => .inl ?_, fun j off => ?_⟩
    · by_cases own : j = i
      · exact .inr (by rw [own, List.foldl_cons, others i notIn])
      · exact .inl (by rw [(evalReady_act s i).others j own])
    · rw [station_evalReady]
      split <;> rfl
    · obtain ⟨other, off⟩ := not_or.1 (mt List.mem_cons.2 off)
      rw [List.foldl_cons, others j off, (evalReady_act s i).others j other]

theorem evalReadyAll_told (s : State) : s.Told s.evalReadyAll := (evalReady_list_told (l := stationIds) (by decide) s).1

/-! ### The ends of the interlocks -/

/-- The state after some of the interlocks have ended. -/
structure State.ClosedBy (g t : State) (done : List StationId) : Prop where
  published : t.published = g.published
  entries : ∀ i, t.station i = { (if i ∈ done then (g.station i).worst else g.station i) with ready := (t.station i).ready }
  ready : ∀ i, (t.station i).ready = (g.station i).ready ∨ (t.station i).ready = false
  told : g.Told t
  stats : t.stats = (g.statEvents (done.flatMap fun i => (g.station i).endEvents i)).stats

section
variable {g t : State} {done : List StationId}

theorem closedBy_next (cleared : g.published = Published.cleared) {i : StationId} (h : g.ClosedBy t done)
    (fresh : i ∉ done) : g.ClosedBy (t.cancelInterlock i) (done ++ [i]) := by
  have entry := h.entries i
  rw [if_neg fresh] at entry
  have act := cancelInterlock_act t i
  have events : (t.station i).endEvents i = (g.station i).endEvents i := by rw [entry]; rfl
  obtain ⟨b, left, flag⟩ := cancelInterlock_station t i
  have worst : (t.station i).worst = { (g.station i).worst with ready := (t.station i).ready } :=
    (congrArg Station.worst entry).trans (blind_worst (g.station i) _)
  have unready : (t.cancelInterlock i).readyCondition i = false :=
    readyCondition_of_cleared ((act.published.trans h.published).trans cleared) i
  rw [unready] at flag
  refine ⟨act.published.trans h.published, fun j => ?_, fun j => ?_, ?_, ?_⟩
  · by_cases own : j = i
    · subst own
      rw [left, worst, if_pos (by simp)]
    · rw [act.others j own]
      simpa [own] using h.entries j
  · by_cases own : j = i
    · subst own
      rw [left]
      rcases flag with same | clear
      · exact (h.ready j).imp same.trans same.trans
      · exact .inr clear
    · rw [act.others j own]
      exact h.ready j
  · refine h.told.trans (cancelInterlock_told t i) (fun j => ?_) fun j => .inr ?_
    · by_cases own : j = i
      · subst own
        rw [left]
        rcases flag with same | clear
        · exact .inr same.symm
        · exact (h.ready j).imp id fun down => down.trans clear.symm
      · exact .inr (by rw [act.others j own])
    · by_cases own : j = i
      · subst own
        rw [left, (worst_keeps _).1]
      · rw [act.others j own]
  · rw [List.flatMap_append, statEvents_append, act.stats, events]
    simpa using statEvents_stats_congr h.stats _

/-- All interlocks ended: every entry by its worst case, the events in the order of the ends, and no choice used up unless
the unit froze. -/
theorem cancelAll_closed (cleared : g.published = Published.cleared) :
    ∃ order, order.Perm stationIds ∧
      g.ClosedBy (g.together State.cancelInterlock (stationIds.map fun i => [i])) order ∧
      g.CountsTogether (g.together State.cancelInterlock (stationIds.map fun i => [i]))
        (stationIds.map fun i => (g.station i).endEvents i) ∧
      (g.stats.frozen = true ∨ (g.together State.cancelInterlock (stationIds.map fun i => [i])).stats.frozen = false →
        (g.together State.cancelInterlock (stationIds.map fun i => [i])).choices = g.choices) := by
  have flat : (stationIds.map fun i => [i]).flatten = stationIds := by decide
  obtain ⟨order, whole, closed, counts, choices⟩ := together_steps (s := g) (act := State.cancelInterlock)
    (parts := stationIds.map fun i => [i]) (fun i => (g.station i).endEvents i) (P := fun done t => g.ClosedBy t done)
    (fun n => ⟨rfl, fun i => by simp; rfl, fun _ => .inl rfl, .of_same rfl rfl fun _ => ⟨rfl, rfl, rfl⟩, rfl⟩)
    (fun {done x rest t} whole h => by
      obtain ⟨fresh, -⟩ := whole.next_fresh (by rw [flat]; decide)
      exact closedBy_next cleared h fresh)
    (fun h => h.stats) fun t x => by simp
  refine ⟨order, flat ▸ whole.perm, closed, ?_, choices⟩
  have lists : (stationIds.map fun i => [i]).map (fun l => l.flatMap fun i => (g.station i).endEvents i) =
      stationIds.map fun i => (g.station i).endEvents i := by
    simp [Function.comp_def]
  exact lists ▸ counts

end

/-! ### Takes while HALTED -/

theorem answerTake_of_halted {s : State} (h : s.halted = true) (i : StationId) :
    answerTake s i = (s, if (s.station i).state = .absent then refuse .refusedState
      else fixedReply s Published.cleared i) := by
  simp only [answerTake, h, if_true]
  split <;> rfl

/-- Takes answered while HALTED change the ports alone. -/
theorem answerEach_of_halted (held : List HeldTake) {s : State} (h : s.halted = true) :
    held.foldl State.answerHeldTake s = { s with ports := (held.foldl State.answerHeldTake s).ports } := by
  induction held generalizing s with
  | nil => rfl
  | cons k held ih =>
    have one : s.answerHeldTake k = { s with ports := (s.answerHeldTake k).ports } := by
      simp only [State.answerHeldTake, answerTake_of_halted h]
      rfl
    have rest := ih (s := s.answerHeldTake k) (by rw [one]; exact h)
    rw [List.foldl_cons]
    generalize held.foldl State.answerHeldTake (s.answerHeldTake k) = u at rest ⊢
    exact rest.trans (congrArg (fun v : State => { v with ports := u.ports }) one)

theorem answerHeldTakes_of_halted {s : State} (h : s.halted = true) :
    s.answerHeldTakes = { s with heldTakes := [], ports := s.answerHeldTakes.ports } :=
  answerEach_of_halted (s := s.setHeldTakes []) _ h

/-! ### The engine's halt -/

theorem answerHeldDispatch_stations (s : State) : s.answerHeldDispatch.stations = s.stations := by
  unfold State.answerHeldDispatch
  split <;> rfl

section
variable (s : State)

/-- The blocks that a halt leaves, but for the Statistics Unit, the router, the ports and the choices (R8, R9, R87). -/
theorem grantHalt_stopped :
    s.stopEngine.grantHalt =
      { (s.stopEngine.together State.cancelInterlock (stationIds.map fun i => [i])) with
        heldTakes := []
        ports := (s.stopEngine.together State.cancelInterlock (stationIds.map fun i => [i])).answerHeldTakes.ports
        stations := s.stopEngine.grantHalt.stations
        router := s.stopEngine.grantHalt.router } := by
  have halted : (s.stopEngine.together State.cancelInterlock (stationIds.map fun i => [i])).halted = true :=
    together_keeps State.halted _ _ (fun _ _ => rfl) (fun t i => by simp) s.stopEngine
  have answered := answerHeldTakes_of_halted halted
  unfold State.grantHalt
  generalize s.stopEngine.together State.cancelInterlock (stationIds.map fun i => [i]) = t at answered ⊢
  generalize t.answerHeldTakes = u at answered ⊢
  have found := evalReadyAll_eq u
  generalize u.evalReadyAll = v at found ⊢
  rw [found, answered]

/-- Every entry after a halt: its interlock ended by the worst case, its flag clear (R87). -/
theorem haltEngine_station (i : StationId) :
    s.haltEngine.station i = { (s.station i).worst with ready := false } := by
  obtain ⟨order, perm, closed, -⟩ := cancelAll_closed (g := s.stopEngine) rfl
  have halted : (s.stopEngine.together State.cancelInterlock (stationIds.map fun i => [i])).halted = true :=
    together_keeps State.halted _ _ (fun _ _ => rfl) (fun t i => by simp) s.stopEngine
  have answered := answerHeldTakes_of_halted halted
  have entry := closed.entries i
  rw [if_pos (perm.mem_iff.2 (mem_stationIds i))] at entry
  have kept : s.haltEngine.station i = s.stopEngine.grantHalt.station i :=
    congrArg (fun v => look v i) (answerHeldDispatch_stations s.stopEngine.grantHalt)
  rw [kept, State.grantHalt]
  have published : _ = Published.cleared := closed.published
  generalize s.stopEngine.together State.cancelInterlock (stationIds.map fun i => [i]) = t at answered entry published ⊢
  have same : t.answerHeldTakes.station i = t.station i := by
    rw [answered]
    rfl
  rw [evalReadyAll_station, readyCondition_of_cleared (by simpa using published), same, entry]
  rfl

theorem haltEngine_stoodDown : s.haltEngine.StoodDown := fun _ =>
  ⟨by simp [State.haltEngine, State.stopEngine], fun i => by
    rw [haltEngine_station]
    exact ⟨worst_interlock _, rfl⟩⟩

end

end Sys2Proof.Machine

/-! PROOFS. Every step keeps the laws between the engine's run state and the other blocks; all laws hold at power-on. -/

namespace Sys2Proof.Machine

section
variable {s t : State}

/-! ### The laws of the run state -/

/-- The laws of `State.ModesWf` that read neither an entry nor the Statistics Unit. -/
structure State.RunModes (s : State) : Prop where
  timer : s.halted = true ↔ s.engine.timer = .stopped
  meter : s.halted = true → s.engine.meter = none
  unheld : s.runInFlight = false → s.heldTakes = [] ∧ s.storage.held = none
  released : ∀ n, (look s.ramp.scopes n).frozen = false → (look s.ramp.scopes n).cleanRuns = 0

theorem modesWf_iff (s : State) : s.ModesWf ↔ s.RunModes ∧ s.StoodDown ∧ s.stats.Reasoned :=
  ⟨fun h => ⟨⟨h.timer, fun halted => (h.cleared halted).2, h.unheld, h.released⟩,
      fun halted => ⟨(h.cleared halted).1, h.unpaired halted⟩, h.reason⟩,
    fun ⟨h, down, reason⟩ =>
      ⟨h.timer, fun halted => ⟨(down halted).1, h.meter halted⟩, h.unheld, fun halted => (down halted).2, h.released, reason⟩⟩

theorem State.RunModes.congr (h : s.RunModes) (engine : t.engine = s.engine) (heldTakes : t.heldTakes = s.heldTakes)
    (storage : t.storage.held = s.storage.held) (ramp : t.ramp.scopes = s.ramp.scopes) : t.RunModes where
  timer := by rw [halted_congr engine, engine]; exact h.timer
  meter := by rw [halted_congr engine, engine]; exact h.meter
  unheld := by rw [runInFlight_congr engine, heldTakes, storage]; exact h.unheld
  released := by rw [ramp]; exact h.released

theorem State.StoodDown.congr (h : s.StoodDown) (engine : t.engine = s.engine) (published : t.published = s.published)
    (stations : t.stations = s.stations) : t.StoodDown := fun halted => by
  rw [halted_congr engine] at halted
  obtain ⟨cleared, entries⟩ := h halted
  exact ⟨published.trans cleared, fun i => by rw [station_congr stations]; exact entries i⟩

theorem State.ModesWf.congr (h : s.ModesWf) (same : s.SameBlocks t) : t.ModesWf := by
  obtain ⟨modes, down, reason⟩ := (modesWf_iff s).1 h
  exact (modesWf_iff t).2
    ⟨modes.congr same.engine same.heldTakes (congrArg Storage.held same.storage) (congrArg Ramp.scopes same.ramp),
      down.congr same.engine same.published same.stations, same.stats ▸ reason⟩

theorem State.Follows.modesWf (h : s.Follows t) (laws : s.ModesWf) (modes : s.RunModes → t.RunModes) : t.ModesWf := by
  obtain ⟨run, down, reason⟩ := (modesWf_iff s).1 laws
  exact (modesWf_iff t).2 ⟨modes run, h.down down, h.reason reason⟩

/-! ### The scopes -/

/-- Scopes of which a released one has no clean runs counted (R129). -/
def ReleasedClean (scopes : Vector Scope 5) : Prop :=
  ∀ n, (look scopes n).frozen = false → (look scopes n).cleanRuns = 0

theorem count_releasedClean {x : Scope} (h : x.frozen = false → x.cleanRuns = 0) (clean : Bool) (auto : Nat)
    (released : (x.count clean auto).frozen = false) : (x.count clean auto).cleanRuns = 0 := by
  revert released
  unfold Scope.count
  split
  · next frozen =>
    simp only
    generalize (if clean then saturate 255 x.cleanRuns else 0) = n
    split
    · exact fun _ => rfl
    · exact fun released => absurd (frozen.symm.trans released) (by decide)
  · exact h

theorem freezeScope_ramp (s : State) (n : ScopeId) :
    (s.freezeScope n).ramp = { s.ramp with scopes := put s.ramp.scopes n { frozen := true, cleanRuns := 0 } } := by
  unfold State.freezeScope
  simp only
  split
  · rfl
  · rw [(evalReadyAll_frame _).2.2.2.2.2.1]
    rfl

theorem rampViolations_scopes (s : State) (x : RunResult) : (s.rampViolations x).ramp.scopes = s.ramp.scopes := by
  unfold State.rampViolations
  simp only
  split <;> split <;> rfl

theorem rampPublication_releasedClean (h : ReleasedClean s.ramp.scopes) (x : RunResult) :
    ReleasedClean (s.rampPublication x).ramp.scopes := by
  have scopes : (s.rampPublication x).ramp = ((s.rampViolations x).rampScopes x).ramp := by
    simp [State.rampPublication]
  rw [scopes]
  have before : ReleasedClean (s.rampViolations x).ramp.scopes := by
    rw [rampViolations_scopes]
    exact h
  generalize s.rampViolations x = u at before ⊢
  have counted : ReleasedClean (if x.ramp.checked then
      u.releaseScopes (tabulate fun n => (look u.ramp.scopes n).count x.clean x.run.params.freezeAuto) else u).ramp.scopes := by
    split
    · rw [releaseScopes_ramp]
      intro n
      rw [look_tabulate]
      exact count_releasedClean (before n) _ _
    · exact before
  unfold State.rampScopes
  simp only
  split
  · rw [freezeScope_ramp]
    intro n
    rw [look_put]
    split
    · exact fun released => by cases released
    · exact counted n
  · exact counted

/-! ### The services -/

theorem serveEngStart_modesWf (h : s.ModesWf) : (serveEngStart s).1.ModesWf := by
  refine (serveEngStart_follows s).modesWf h fun modes => ?_
  unfold serveEngStart
  split
  · next halted =>
    have idle := modes.unheld (by
      revert halted
      unfold State.halted State.runInFlight
      cases s.engine.run <;> simp)
    have started : s.startEngine.halted = false := by simp only [State.halted, startEngine_engine]
    dsimp only
    refine ⟨?_, fun down => ?_, fun _ => ?_, fun n _ => ?_⟩
    · rw [started, startEngine_engine]
      exact iff_of_false (by decide) (by simp)
    · rw [started] at down
      cases down
    · simpa [State.startEngine] using idle
    · have scopes : s.startEngine.ramp.scopes = Vector.replicate 5 Scope.released := by
        simp [State.startEngine, releaseScopes_ramp]
      rw [scopes, look_replicate]
      rfl
  · exact modes

theorem answerHeldDispatch_held (s : State) : s.answerHeldDispatch.storage.held = none := by
  unfold State.answerHeldDispatch
  split
  · next none => exact none
  · rfl

theorem haltEngine_runModes (h : ReleasedClean s.ramp.scopes) : s.haltEngine.RunModes where
  timer := iff_of_true (haltEngine_halted s) (by rw [haltEngine_engine])
  meter _ := by rw [haltEngine_engine]
  unheld _ := by
    have kept : s.haltEngine.heldTakes = s.stopEngine.grantHalt.heldTakes := by simp [State.haltEngine]
    refine ⟨by rw [kept, grantHalt_stopped], ?_⟩
    rw [State.haltEngine]
    exact answerHeldDispatch_held _
  released := by
    have kept : s.haltEngine.ramp = s.ramp := by simp [State.haltEngine, State.stopEngine]
    rw [kept]
    exact h

theorem serveEngHalt_modesWf (h : s.ModesWf) : (serveEngHalt s).1.ModesWf := by
  unfold serveEngHalt
  simp only
  split
  · exact h
  · obtain ⟨modes, -, reason⟩ := (modesWf_iff s).1 h
    have stopped : s.stopEngine.stats.Reasoned := reason
    have kept := (haltEngine_follows s).reason stopped
    exact (modesWf_iff _).2 ⟨haltEngine_runModes modes.released, haltEngine_stoodDown s, kept⟩

/-- A request that is held is so only while a run is in flight (R77, R99). -/
theorem serveCeilTake_runModes (modes : s.RunModes) (i : StationId) (tag : Byte) : (serveCeilTake s i tag).1.RunModes := by
  unfold serveCeilTake
  split
  · next flight =>
    exact
      { modes with
        unheld := fun landed => absurd (flight.symm.trans landed) (by decide) }
  · exact modes.congr (by simp) (by simp) (by simp) (by simp)

theorem serveDispTake_runModes (modes : s.RunModes) (tag : Byte) : (serveDispTake s tag).1.RunModes := by
  unfold serveDispTake
  split
  · next flight =>
    exact
      { modes with
        unheld := fun landed => absurd (flight.symm.trans landed) (by decide) }
  · exact modes

theorem serveFreezeRelease_runModes (modes : s.RunModes) (scope : Byte) : (serveFreezeRelease s scope).1.RunModes := by
  unfold serveFreezeRelease
  split
  · exact modes
  · next ns _ =>
    refine ⟨?_, ?_, ?_, ?_⟩
    · simpa [State.halted] using modes.timer
    · simpa [State.halted] using modes.meter
    · simpa [State.runInFlight] using modes.unheld
    · intro n
      simp only [releaseScopes_ramp, look_tabulate]
      split
      · exact fun _ => rfl
      · exact modes.released n

theorem serveMeter_runModes (modes : s.RunModes) (value : BitVec 32) (tag : BitVec 16) :
    (serveMeter s value tag).1.RunModes := by
  unfold serveMeter
  split
  · exact modes
  · next live =>
    split
    · exact modes
    · exact
        { modes with
          meter := fun halted => absurd halted live }

theorem serveStatCtrl_modesWf (h : s.ModesWf) (action : StatAction) : (serveStatCtrl s action).1.ModesWf := by
  obtain ⟨modes, down, reason⟩ := (modesWf_iff s).1 h
  refine (modesWf_iff _).2 ⟨modes.congr (by simp) (by simp) (by simp) (by simp), fun halted => ?_,
    serveStatCtrl_reasoned reason action⟩
  obtain ⟨cleared, entries⟩ := down ((serveStatCtrl_reads s action).1.1 ▸ halted)
  exact ⟨(serveStatCtrl_frame s action).2.2.1.trans cleared, fun i => by
    rw [(serveStatCtrl_reads s action).2.1]
    exact entries i⟩

theorem serveBody_modesWf (h : s.ModesWf) (p : Port) (r : Request) : (serveBody s p r).1.ModesWf := by
  by_cases halts : r.body = .engHalt
  · obtain ⟨tag, body⟩ := r
    obtain rfl : body = .engHalt := halts
    exact supervisorOnly_keeps h (serveEngHalt_modesWf h) p
  cases writes : r.body.writesCounters with
  | true =>
    obtain ⟨tag, body⟩ := r
    obtain ⟨action, rfl⟩ := Body.statCtrl_of_writes writes
    exact supervisorOnly_keeps h (serveStatCtrl_modesWf h action) p
  | false =>
  refine (serveBody_follows s p halts writes).modesWf h fun modes => ?_
  have only : ∀ {x : State × Reply}, x.1.RunModes → (supervisorOnly p s x).1.RunModes := fun hx =>
    supervisorOnly_keeps (P := State.RunModes) modes hx p
  obtain ⟨tag, body⟩ := r
  cases body
  case engHalt => exact absurd rfl halts
  case engStart => exact only ((modesWf_iff _).1 (serveEngStart_modesWf h)).1
  case meter value tag => exact only (serveMeter_runModes modes value tag)
  case freezeRelease scope => exact only (serveFreezeRelease_runModes modes scope)
  case ceilTake =>
    simp only [serveBody]
    split
    · exact serveCeilTake_runModes modes _ _
    · exact modes
    · exact modes
  case dispTake =>
    simp only [serveBody]
    split
    · exact serveDispTake_runModes modes _
    · exact modes
    · exact modes
  case join =>
    simp only [serveBody]
    split
    · exact modes.congr (by simp [answered]) (by simp [answered]) (by simp [answered]) (by simp [answered])
    · refine modes.congr (by simp [answered]) (by simp [answered]) ?_ (by simp [answered])
      simp only [answered, serveStorageJoin]
      split <;> rfl
    · exact modes
  case leave =>
    simp only [serveBody]
    split
    · exact modes.congr (by simp [answered]) (by simp [answered]) (by simp [answered]) (by simp [answered])
    · refine modes.congr (by simp [answered]) (by simp [answered]) ?_ (by simp [answered])
      simp only [answered, serveStorageLeave, State.leaveStorageStale]
      (repeat' split) <;> rfl
    · exact modes
  case storTel meas soc bdis bchg =>
    simp only [serveBody]
    split
    · refine modes.congr (by simp [answered]) (by simp [answered]) ?_ (by simp [answered])
      simp only [answered, serveStorTel, State.leaveStorageStale, storTelReply]
      (repeat' split) <;> rfl
    · exact modes
    · exact modes
  case faultClear station =>
    refine only (modes.congr (by simp) (by simp) (by simp) ?_)
    unfold serveFaultClearNamed
    split
    · simp [serveFaultClearPlant]
    · split <;> simp
  case captRelease => exact only (modes.congr (by simp) (by simp) (by simp) rfl)
  all_goals
    refine modes.congr ?_ ?_ (congrArg Storage.held ?_) (congrArg Ramp.scopes ?_) <;>
      simp only [serveBody, supervisorOnly] <;> (repeat' split) <;> simp [answered, roleRefused]

/-! ### Runs, PORT-RESET and every step -/

theorem resetBehind_runModes (modes : s.RunModes) (p : Port) : (s.resetBehind p).RunModes := by
  have scopes : (s.resetBehind p).ramp.scopes = s.ramp.scopes := by simp
  have engine : (s.resetBehind p).engine = s.engine := by simp
  refine ⟨?_, ?_, fun landed => ?_, fun n => scopes ▸ modes.released n⟩
  · rw [halted_congr engine, engine]
    exact modes.timer
  · rw [halted_congr engine, engine]
    exact modes.meter
  · rw [runInFlight_congr engine] at landed
    obtain ⟨takes, held⟩ := modes.unheld landed
    unfold State.resetBehind
    split
    · simpa [State.dropHeldTake, takes] using held
    · refine ⟨by simpa using takes, ?_⟩
      unfold State.resetStorage State.leaveStorageStale
      simp only
      (repeat' split) <;> rfl
    · exact ⟨takes, held⟩

theorem startRun_follows (s : State) : s.startRun.StoodDown ∧ (s.stats.Reasoned → s.startRun.stats.Reasoned) := by
  obtain ⟨n, started⟩ := startRun_eq s
  have aged : s.stats.Reasoned → s.ageStations.stats.Reasoned := fun h => by
    rw [ageStations_eq]
    refine together_inv (P := fun t : State => t.stats.Reasoned) (fun _ _ h => h) (fun t x _ h => ?_)
      (s.updStations fun _ e => e.grow) h
    obtain ⟨i, part⟩ := x
    cases part with
    | becomes => exact ((setEntryState_becomes t i .stale).trans (updStation_becomes _ i _ rfl)).reasoned h
    | reports => exact statEvent_reasoned (s := t.fire .stnStale i) h ..
    | longer =>
      simp only [State.ageingPart, staleLonger_eq]
      split
      · exact (monitorEvent_follows (t.updStation i _) i _).reason h
      · exact h
  rw [started]
  refine ⟨.of_unhalted rfl, fun h => ?_⟩
  have kept : s.aged.stats = s.ageStations.stats := by
    unfold State.aged
    simp
  exact kept.symm ▸ aged h

theorem startRun_modesWf (h : s.ModesWf) (running : s.engine.run = .running) : s.startRun.ModesWf := by
  obtain ⟨modes, -, reason⟩ := (modesWf_iff s).1 h
  obtain ⟨down, reasoned⟩ := startRun_follows s
  obtain ⟨n, started⟩ := startRun_eq s
  have engine := congrArg State.engine started
  have live : s.halted = false := by simp only [State.halted, running]
  have halted : s.startRun.halted = false := by simp only [State.halted, engine]
  refine (modesWf_iff _).2 ⟨⟨?_, fun no => ?_, fun landed => ?_, ?_⟩, down, reasoned reason⟩
  · rw [halted, engine]
    have timer := modes.timer
    rwa [live] at timer
  · rw [halted] at no
    cases no
  · simp only [State.runInFlight, engine] at landed
    cases landed
  · have ramp : s.startRun.ramp = s.ramp := by simp
    rw [ramp]
    exact modes.released

theorem publish_modesWf {run : RunInputs} (h : s.ModesWf) (flight : s.engine.run = .inFlight run) (x : RunResult) :
    (s.publish x).ModesWf := by
  refine (publish_follows s x).modesWf h fun modes => ?_
  have engine := publish_engine s x
  have live : s.halted = false := by simp only [State.halted, flight]
  have halted : (s.publish x).halted = false := by simp only [State.halted, engine]
  refine ⟨?_, fun no => ?_, fun _ => ⟨?_, ?_⟩, ?_⟩
  · rw [halted, engine]
    have timer := modes.timer
    rwa [live] at timer
  · rw [halted] at no
    cases no
  · simp only [State.publish, answerHeldDispatch_frame, State.grantPublication, evalReadyAll_frame, answerHeldTakes_heldTakes]
  · rw [State.publish]
    exact answerHeldDispatch_held _
  · have ramp : (s.publish x).ramp = ((s.nextEvent.commitRun x).rampPublication x).ramp := by
      simp [State.publish]
    rw [ramp]
    exact rampPublication_releasedClean (s := s.nextEvent.commitRun x) modes.released x

theorem modesKept : Kept State.ModesWf State.ModesWf fun _ => True :=
  .of_blocks (fun h same => h.congr same)
    (fun x m p h => (statEvent_follows _ x m p).modesWf h fun modes => modes.congr (by simp) (by simp) (by simp) (by simp))
    (fun p b h => (takingEnds_follows _ p b).modesWf h fun modes => modes.congr (by simp) (by simp) (by simp) (by simp))
    (fun p r h => serveBody_modesWf h p r)
    (fun p h => (resetBehind_follows _ p).modesWf h fun modes => resetBehind_runModes modes p)

theorem reset_modesWf : State.reset.ModesWf where
  timer := iff_of_true rfl rfl
  cleared _ := ⟨rfl, rfl⟩
  unheld _ := ⟨rfl, rfl⟩
  unpaired _ i := by
    have entry : State.reset.station i = Station.reset := look_replicate ..
    rw [entry]
    exact ⟨rfl, rfl⟩
  released n _ := by
    have scope : look State.reset.ramp.scopes n = Scope.released := look_replicate ..
    rw [scope]
    rfl
  reason := iff_of_true rfl rfl

/-- Settles O59: the parts of the commands keep the laws (`modesKept`); a halt ends every interlock and clears every flag
(`haltEngine_stoodDown`), and while HALTED no part opens an interlock or sets a flag (`State.Becomes.down`). -/
theorem modeLawsKept : Obligations.ModeLawsKept := fun _ _ h e =>
  modesKept.keeps_step (fun _ h => h.congr ⟨rfl, rfl, rfl, rfl, rfl, rfl, rfl, rfl⟩)
    (fun _ e => (powerOn_eq e) ▸ reset_modesWf.congr ⟨rfl, rfl, rfl, rfl, rfl, rfl, rfl, rfl⟩)
    startRun_modesWf (fun h flight => publish_modesWf h flight _) h e

theorem reset_setsWf : State.reset.SetsWf where
  settled p := by
    have set : look State.reset.router.sets p = PendingSet.empty := look_replicate ..
    rw [set]
    rfl
  once p := by
    have set : look State.reset.router.sets p = PendingSet.empty := look_replicate ..
    rw [set]
    exact List.nodup_nil
  each p e mem := by
    have set : look State.reset.router.sets p = PendingSet.empty := look_replicate ..
    rw [set] at mem
    cases mem

/-- Settles O54, law by law. -/
theorem lawsHoldAtReset : Obligations.LawsHoldAtReset :=
  ⟨reset_portsWf rfl rfl fun _ => ⟨_, look_replicate ..⟩, reset_setsWf, reset_stationsWf, reset_recordWf, reset_engineWf, reset_modesWf⟩

end

end Sys2Proof.Machine

/-! PROOFS. TIMER_EXPIRY: the tables aged, the snapshot and the notices of a run's start. -/

namespace Sys2Proof.Machine

/-! ### The entries that a firing and an end report leave -/

theorem mem_insertFresh {e x : PendingEntry} {es : List PendingEntry} : x ∈ insertFresh e es ↔ x = e ∨ x ∈ es := by
  induction es with
  | nil => simp [insertFresh]
  | cons y ys ih =>
    unfold insertFresh
    split
    · simp
    · simp only [List.mem_cons, ih]
      exact or_left_comm

/-- A delivered firing leaves an entry of its pair. -/
theorem deliver_mem (q : PendingSet) (k : CauseKind) (i : StationId) (r : Release) (l : Bool) :
    ∃ e ∈ (q.deliver k i r l).all, e.isFor k i = true := by
  unfold PendingSet.deliver
  split
  · next any =>
    obtain ⟨e, mem, own⟩ := List.any_eq_true.1 any
    refine ⟨e.merge k i l, ?_, ?_⟩
    · have merged := List.mem_map_of_mem (f := PendingEntry.merge k i l) mem
      simpa [PendingSet.all] using merged
    · unfold PendingEntry.merge
      rw [if_pos own]
      exact own
  · refine ⟨{ kind := k, inst := i, release := r, count := 1, locked := l }, ?_, (isFor_iff _ k i).2 ⟨rfl, rfl⟩⟩
    simp [PendingSet.all, mem_insertFresh]

/-! ### Source events of which no two have an order -/

/-- Where no two events stand in one list, the lists' events come in any order. -/
theorem interleaves_of_perm {α : Type} {ls : List (List α)} {order : List α} (short : ∀ l ∈ ls, l.length ≤ 1)
    (perm : order.Perm ls.flatten) : Interleaves ls order := by
  induction order generalizing ls with
  | nil => exact .done ls (List.nil_perm.1 perm)
  | cons x rest ih =>
    obtain ⟨l, mem, here⟩ := List.mem_flatten.1 (perm.subset (List.mem_cons_self ..))
    obtain ⟨before, after, rfl⟩ := List.append_of_mem mem
    obtain rfl : l = [x] := by
      obtain ⟨y, rfl⟩ := List.length_eq_one_iff.1 (Nat.le_antisymm (short l mem) (List.length_pos_of_mem here))
      rw [List.mem_singleton.1 here]
    refine .next before after [] x rest (ih (fun m own => ?_) ?_)
    · rcases List.mem_append.1 own with old | own
      · exact short m (List.mem_append_left _ old)
      · rcases List.mem_cons.1 own with rfl | new
        · exact Nat.zero_le _
        · exact short m (List.mem_append_right _ (List.mem_cons_of_mem _ new))
    · have whole : (x :: rest).Perm (x :: (before ++ [] :: after).flatten) := perm.trans (by simp)
      exact whole.cons_inv

/-- Two groupings of the same events of which no two have an order count alike. -/
theorem State.CountsTogether.regroup {s t : State} {ls ms : List (List SourceEvent)} (h : s.CountsTogether t ls)
    (short : ∀ l ∈ ms, l.length ≤ 1) (same : ls.flatten.Perm ms.flatten) : s.CountsTogether t ms := by
  obtain ⟨order, whole, stats⟩ := h
  exact ⟨order, interleaves_of_perm short (whole.perm.trans same), stats⟩

section
variable {x y : Router} {k : CauseKind} {i : StationId} {p : Port}

/-- A port that a firing reaches shows an entry of the pair, however the other pairs stand. -/
theorem mem_of_fired (h : y.AgreesAt (x.fire k i false) k i p) (settled : (look y.sets p).fresh = [])
    (reaches : (look x.routes k.code).reaches k i p = true) :
    ∃ e ∈ (look y.sets p).entries, e.kind = k ∧ e.inst = i := by
  have set : look (x.fire k i false).sets p = (look x.sets p).deliver k i (look x.routes k.code).release false := by
    simp only [Router.fire, look_tabulate, reaches, if_true]
  obtain ⟨e, mem, own⟩ := deliver_mem (look x.sets p) k i (look x.routes k.code).release false
  have here : e ∈ (look y.sets p).all.filter (fun e => e.isFor k i) := by
    rw [h, set]
    exact List.mem_filter.2 ⟨mem, own⟩
  rw [all_of_settled settled] at here
  exact ⟨e, (List.mem_filter.1 here).1, (isFor_iff e k i).1 own⟩

end

/-! ### The Station Table at a run's start -/

section
variable (s : State)

theorem grown_station (i : StationId) : (s.updStations fun _ e => e.grow).station i = (s.station i).grow := by simp

theorem grow_keeps (e : Station) : e.grow.state = e.state ∧ e.grow.ready = e.ready ∧ e.grow.statuses = e.statuses ∧
    e.grow.interlock = e.interlock ∧ e.grow.applied = e.applied ∧ e.grow.staleDuration = e.staleDuration ∧
    e.grow.holding = e.holding := by
  unfold Station.grow
  split <;> exact ⟨rfl, rfl, rfl, rfl, rfl, rfl, rfl⟩

theorem grow_of_present {e : Station} (h : e.state ≠ .absent) : e.grow = { e with age := min 255 (e.age + 1) } := if_neg h

theorem tooOld_grown (i : StationId) :
    (s.updStations fun _ e => e.grow).tooOld i = ((s.station i).state == .online &&
      decide (s.params.telWmax < min 255 ((s.station i).age + 1))) := by
  unfold State.tooOld
  rw [grown_station, (grow_keeps _).1]
  by_cases online : (s.station i).state = .online
  · rw [grow_of_present (by rw [online]; decide)]
    rfl
  · simp [beq_eq_false_iff_ne.2 online]

/-- An entry at a run's start (R59, R60). -/
def State.agedStation (s : State) (i : StationId) : Station :=
  let e := (s.station i).grow
  if (s.station i).state = .online ∧ s.params.telWmax < min 255 ((s.station i).age + 1) then e.staled
  else if (s.station i).state = .stale then e.stayed s.params
  else e

/-- Whether an entry becomes STALE at a run's start (R59). -/
def State.turnsStale (s : State) (i : StationId) : Bool :=
  (s.station i).state == .online && decide (s.params.telWmax < min 255 ((s.station i).age + 1))

/-- Whether a STALE entry reaches the run count of R60 at a run's start. -/
def State.turnsDead (s : State) (i : StationId) : Bool :=
  (s.station i).state == .stale && (let d := min 255 ((s.station i).staleDuration + 1)
    d == s.params.telWdead && (s.station i).staleDuration != d)

/-- The source events of one station at a run's start. -/
def State.agedCounts (s : State) (i : StationId) : List (List SourceEvent) :=
  [match (s.station i).interlock with
    | some r => if s.turnsStale i then [⟨.interlockEnd, r.granted - (s.station i).applied, stationPort i⟩] else []
    | none => [],
    if s.turnsStale i then [⟨.staleEntry, 0, stationPort i⟩] else [],
    if s.turnsDead i && (s.station i).wouldFault s.params.monWindow then [⟨.faultEntry, 0, stationPort i⟩] else []]

theorem agedCounts_short (i : StationId) {l : List SourceEvent} (h : l ∈ s.agedCounts i) : l.length ≤ 1 := by
  simp only [State.agedCounts, List.mem_cons, List.not_mem_nil, or_false] at h
  rcases h with rfl | rfl | rfl
  · split
    · split <;> simp
    · simp
  · split <;> simp
  · split <;> simp

theorem flatMap_filter_if {α β : Type} (p : α → Bool) (f : α → List β) (l : List α) :
    (l.filter p).flatMap f = l.flatMap fun a => if p a then f a else [] := by
  induction l with
  | nil => rfl
  | cons a l ih =>
    rw [List.filter_cons, List.flatMap_cons, ← ih]
    split <;> rfl

theorem endEvents_congr {e f : Station} (i : StationId) (interlock : e.interlock = f.interlock)
    (applied : e.applied = f.applied) : e.endEvents i = f.endEvents i := by
  rw [Station.endEvents, Station.endEvents, interlock, applied]

/-- The source events of the parts of a run's start, station by station. -/
theorem ageingEvents_perm :
    (((s.updStations fun _ e => e.grow).ageingParts fun i => (s.station i).state == .stale).map
      (·.flatMap (s.updStations fun _ e => e.grow).ageingEvents)).flatten.Perm
      (stationIds.flatMap s.agedCounts).flatten := by
  have early : ∀ i, (if (s.updStations fun _ e => e.grow).tooOld i then
      ((s.updStations fun _ e => e.grow).station i).moveEvents .stale i ++ [⟨.staleEntry, 0, stationPort i⟩] else []) =
      (match (s.station i).interlock with
        | some r => if s.turnsStale i then [⟨.interlockEnd, r.granted - (s.station i).applied, stationPort i⟩] else []
        | none => []) ++ (if s.turnsStale i then [⟨.staleEntry, 0, stationPort i⟩] else []) := fun i => by
    have old : (s.updStations fun _ e => e.grow).tooOld i = s.turnsStale i := tooOld_grown s i
    have kept := grow_keeps (s.station i)
    rw [old, grown_station]
    by_cases late : s.turnsStale i = true
    · have online : (s.station i).grow.state = .online := by
        rw [kept.1]
        exact beq_iff_eq.1 (Bool.and_eq_true_iff.1 late).1
      simp only [late, if_true, Station.moveEvents, online, ne_eq, reduceCtorEq, not_false_eq_true, and_self]
      rw [endEvents_congr i kept.2.2.2.1 kept.2.2.2.2.1, Station.endEvents]
      cases (s.station i).interlock <;> rfl
    · simp only [late, if_false, Bool.false_eq_true]
      cases (s.station i).interlock <;> rfl
  have later : ∀ i, (if (s.station i).state == .stale then
      ((s.updStations fun _ e => e.grow).station i).stayEvents s.params i else []) =
      if s.turnsDead i && (s.station i).wouldFault s.params.monWindow then [⟨.faultEntry, 0, stationPort i⟩] else [] :=
    fun i => by
      have kept := grow_keeps (s.station i)
      have fault : (s.station i).grow.wouldFault s.params.monWindow = (s.station i).wouldFault s.params.monWindow := by
        unfold Station.wouldFault
        rw [kept.1, kept.2.2.2.2.2.2]
      rw [grown_station, Station.stayEvents, Station.faultEvents, kept.2.2.2.2.2.1, fault]
      have turns : s.turnsDead i = true ↔ (s.station i).state = .stale ∧
          saturate 255 (s.station i).staleDuration = s.params.telWdead ∧
          (s.station i).staleDuration ≠ saturate 255 (s.station i).staleDuration := by
        simp only [State.turnsDead, Bool.and_eq_true, beq_iff_eq, bne_iff_ne]
        rfl
      by_cases dead : s.turnsDead i = true
      · obtain ⟨stale, count, moves⟩ := turns.1 dead
        rw [if_pos (beq_iff_eq.2 stale), if_pos ⟨count, moves⟩, dead, Bool.true_and]
      · rw [Bool.eq_false_iff.2 dead, Bool.false_and, if_neg (by decide : ¬ false = true)]
        split
        · next stale => rw [if_neg fun both => dead (turns.2 ⟨beq_iff_eq.1 stale, both⟩)]
        · rfl
  have flat : ∀ ls : List (List (StationId × AgeingPart)), (ls.map
      (·.flatMap (s.updStations fun _ e => e.grow).ageingEvents)).flatten =
      ls.flatten.flatMap (s.updStations fun _ e => e.grow).ageingEvents := fun ls => by
    induction ls with
    | nil => rfl
    | cons l ls ih => simp [ih]
  have counted : (stationIds.flatMap s.agedCounts).flatten = stationIds.flatMap fun i => (s.agedCounts i).flatten := by
    rw [List.flatMap_def, List.flatten_flatten, List.map_map, List.flatMap_def]
    rfl
  rw [flat, ageingParts_flatten, List.flatMap_append, List.flatMap_assoc, List.flatMap_map, flatMap_filter_if,
    flatMap_filter_if, counted]
  refine (List.flatMap_append_perm _ _ _).trans (List.Perm.of_eq ?_)
  refine congrArg stationIds.flatMap (funext fun i => ?_)
  rw [State.agedCounts, List.flatten_cons, List.flatten_cons, List.flatten_cons, List.flatten_nil, List.append_nil,
    ← later i, ← List.append_assoc, ← early i]
  simp [State.ageingEvents]

/-- The Station Table at a run's start: the entries, the notices, the source events and the choices. -/
theorem ageStations_result :
    (∀ i, s.ageStations.station i = s.agedStation i) ∧ s.Told s.ageStations ∧
      s.CountsTogether s.ageStations (stationIds.flatMap s.agedCounts) ∧
      (s.stats.frozen = true ∨ s.ageStations.stats.frozen = false → s.ageStations.choices = s.choices) := by
  have stays : ∀ i, ((s.station i).state == .stale) = true →
      ((s.updStations fun _ e => e.grow).station i).state = .stale := fun i stale => by
    rw [grown_station, (grow_keeps _).1]
    exact beq_iff_eq.1 stale
  obtain ⟨order, perm, aged, counts, choices⟩ := ageingParts_together (s.updStations fun _ e => e.grow) stays
  rw [← ageStations_eq] at aged counts choices
  have late : ∀ i part, part ≠ AgeingPart.longer → ((i, part) ∈ order ↔
      (s.station i).state = .online ∧ s.params.telWmax < min 255 ((s.station i).age + 1)) := fun i part other => by
    rw [perm.mem_iff]
    have old := tooOld_grown s i
    refine ⟨fun mem => ?_, fun both => ageingParts_mem part ?_⟩
    · have mine := mem_ageingParts mem
      cases part with
      | becomes | reports => simpa [old] using mine
      | longer => exact absurd rfl other
    · cases part with
      | becomes | reports => simpa [old] using both
      | longer => exact absurd rfl other
  have longer : ∀ i, (i, AgeingPart.longer) ∈ order ↔ (s.station i).state = .stale := fun i => by
    rw [perm.mem_iff]
    exact ⟨fun mem => beq_iff_eq.1 (mem_ageingParts mem), fun stale => ageingParts_mem .longer (beq_iff_eq.2 stale)⟩
  have entries : ∀ i, s.ageStations.station i = s.agedStation i := fun i => by
    rw [aged.entries, State.agedEntry, State.agedStation]
    simp only [late i .becomes (by decide), longer i, grown_station]
    rfl
  refine ⟨entries, ?_, ?_, choices⟩
  · refine (aged.told.of_start (s := s) rfl rfl fun i => ?_).told fun i => ?_
    · have kept := grow_keeps (s.station i)
      rw [grown_station]
      exact ⟨kept.2.1, kept.1, kept.2.2.1⟩
    · rw [State.agedStale, State.noticesOf, ← aged.entries i]
      by_cases stale : (s.station i).state = .stale
      · have other : ¬ ((s.station i).state = .online ∧ s.params.telWmax < min 255 ((s.station i).age + 1)) :=
          fun both => by rw [stale] at both; cases both.1
        rw [if_neg fun mem => other ((late i .reports (by decide)).1 mem), if_pos ((longer i).2 stale), stale]
        rfl
      · rw [if_neg fun mem => stale ((longer i).1 mem), List.append_nil, beq_eq_false_iff_ne.2 stale, entries,
          State.agedStation, if_neg stale]
        simp only [late i .reports (by decide)]
        split
        · rfl
        · rw [(grow_keeps _).1, beq_eq_false_iff_ne.2 stale]
          rfl
  · refine (counts.congr (s' := s) (t' := s.ageStations) rfl rfl).regroup (fun l mem => ?_) (ageingEvents_perm s)
    obtain ⟨i, -, here⟩ := List.mem_flatMap.1 mem
    exact agedCounts_short s i here

end

end Sys2Proof.Machine

/-! PROOFS. TIMER_EXPIRY: the record aged, the snapshot, and what a run's start leaves as a whole. -/

namespace Sys2Proof.Machine

/-! ### The storage record at a run's start -/

section
variable (s : State)

theorem ageStorage_storage : s.ageStorage.storage =
    if s.storage.state = .absent then s.storage
    else { s.storage with
      age := min 255 (s.storage.age + 1)
      state := if s.storage.state = .online ∧ s.params.telWmax < min 255 (s.storage.age + 1) then .stale
        else s.storage.state } := by
  unfold State.ageStorage
  split
  · rfl
  · rw [show min 255 (s.storage.age + 1) = saturate 255 s.storage.age from rfl]
    simp only [Bool.and_eq_true, decide_eq_true_eq]
    by_cases late : s.storage.state = .online ∧ s.params.telWmax < saturate 255 s.storage.age
    · simp only [if_pos late]
      rfl
    · simp only [if_neg late]
      rfl

/-- STORE-STALE fires once when the record becomes STALE (R97). -/
theorem ageStorage_hears : s.Hears s.ageStorage (onlyPair .storeStale 0 (List.replicate
    (if s.storage.state = .online ∧ s.ageStorage.storage.state = .stale then 1 else 0) (.fires .storeStale 0 false))) := by
  refine .of_fired ?_
  rw [ageStorage_storage]
  unfold State.ageStorage
  by_cases gone : s.storage.state = .absent
  · simp [gone, Router.fired]
  · simp only [gone, if_false, Bool.and_eq_true, decide_eq_true_eq]
    rw [show min 255 (s.storage.age + 1) = saturate 255 s.storage.age from rfl]
    by_cases late : s.storage.state = .online ∧ s.params.telWmax < saturate 255 s.storage.age
    · simp only [if_pos late, and_true, if_pos late.1]
      rfl
    · have stays : ¬ (s.storage.state = .online ∧ s.storage.state = .stale) := fun both => by
        rw [both.1] at both
        cases both.2
      simp only [if_neg late, if_neg stays]
      rfl

end

/-! ### The snapshot -/

section
variable (s : State)

/-- What a snapshot shows of an entry: its state, or STALE where FAULT-CLEAR met DEAD (R4, log entry 24). -/
theorem snapshotStates_shown (t : State) (i : StationId) :
    look (s.snapshotStates t).1 i = (t.station i).state ∨
      ((s.station i).state = .stale ∧ (t.station i).state = .faulted ∧ s.lastClear = some i ∧
        look (s.snapshotStates t).1 i = .stale) := by
  unfold State.snapshotStates
  split
  · simp only [look_tabulate]
    split
    · next both =>
      have meets := (Bool.and_eq_true_iff.1 both).1
      simp only [State.clearMeetsDead, Bool.and_eq_true, beq_iff_eq] at meets
      exact .inr ⟨meets.1.1, meets.1.2, meets.2, rfl⟩
    · exact .inl rfl
  · exact .inl (look_tabulate ..)

/-- With no FAULT-CLEAR just before it, a snapshot uses up no choice. -/
theorem snapshotStates_calm {s : State} (h : s.lastClear = none) (t : State) : (s.snapshotStates t).2 = t := by
  have never : stationIds.any (s.clearMeetsDead t) = false := by
    simp [State.clearMeetsDead, h]
  unfold State.snapshotStates
  rw [never]
  rfl

end

/-! ### A run's start as a whole -/

/-- The state after a run's start and the end of its event. -/
def State.runStarted (s : State) : State :=
  { s with
    engine :=
      { s.engine with
        run := .inFlight (s.inputs (s.snapshotStates s.aged).1), counter := s.engine.counter + 1, meter := none }
    stations := s.aged.stations, storage := s.aged.storage, stats := s.aged.stats, router := s.aged.router.settle
    choices := (s.snapshotStates s.aged).2.choices, lastClear := none }

theorem exec_timerExpiry {s : State} (running : s.engine.run = .running) : exec .timerExpiry s = .next s.runStarted := by
  have start : s.startRun.endEvent = s.runStarted := by
    obtain ⟨n, started⟩ := startRun_eq s
    have choices : (s.snapshotStates s.aged).2.choices = n := congrArg State.choices started
    have published : s.aged.published = s.published := by simp [State.aged]
    have heldTakes : s.aged.heldTakes = s.heldTakes := by simp [State.aged]
    have ramp : s.aged.ramp = s.ramp := by simp [State.aged]
    have ports : s.aged.ports = s.ports := by simp [State.aged]
    have pending : s.aged.pending = s.pending := by simp [State.aged]
    rw [started, State.runStarted, choices]
    unfold State.endEvent State.setRouter
    dsimp only
    rw [published, heldTakes, ramp, ports, pending]
  simp only [exec, execTimerExpiry, running, start]

section
variable (s : State)

theorem aged_station (i : StationId) : s.aged.station i = s.agedStation i :=
  (station_congr (ageStorage_stations _) i).trans ((ageStations_result s).1 i)

theorem aged_hears : s.Hears s.aged fun k i => s.noticesOf s.aged k i ++ onlyPair .storeStale 0 (List.replicate
    (if s.storage.state = .online ∧ s.aged.storage.state = .stale then 1 else 0) (.fires .storeStale 0 false)) k i := by
  obtain ⟨-, told, -, -⟩ := ageStations_result s
  have record := ageStorage_hears s.ageStations
  rw [show s.ageStations.storage = s.storage by simp] at record
  refine (told.hears.trans record).of_eq fun k i => ?_
  rw [noticesOf_congr (s := s) (t := s.ageStations) (s' := s) (t' := s.aged) (fun i => ⟨rfl, rfl, rfl⟩) rfl
    (fun i => by rw [State.aged, station_congr (ageStorage_stations s.ageStations)]; exact ⟨rfl, rfl, rfl⟩)
    (by simp [State.aged])]
  rfl

end

/-- Settles O41: the tables aged entry by entry (`ageStations_result`), the record (`ageStorage_storage`), and the
snapshot (`snapshotStates_shown`). -/
theorem timerExpiryBeginsRun : Obligations.TimerExpiryBeginsRun := by
  intro s settled
  refine ⟨fun idle => ?_, fun running => ?_⟩
  · simp only [exec, execTimerExpiry]
    split
    · next running => exact absurd running idle
    · rfl
    · rfl
  obtain ⟨entries, told, counts, choices⟩ := ageStations_result s
  have agrees : ∀ q k j, s.runStarted.router.AgreesAt s.aged.router k j q := fun q k j => settle_agrees _ k j q
  have heard := aged_hears s
  have entry : ∀ i, s.runStarted.station i = s.agedStation i := aged_station s
  have record : s.runStarted.storage = _ := ageStorage_storage s.ageStations
  rw [show s.ageStations.storage = s.storage by simp, show s.ageStations.params = s.params by simp] at record
  have stats : s.aged.stats = s.ageStations.stats := by simp [State.aged]
  refine ⟨s.runStarted, look (s.snapshotStates s.aged).1, exec_timerExpiry running, rfl,
    fun i => snapshotStates_shown s s.aged i, fun none froze => ?_, fun gone => ?_, fun here => ?_, fun i => ?_, ?_,
    fun q => ?_, fun i q => ⟨?_, ?_⟩, ?_⟩
  · have kept : (s.snapshotStates s.aged).2.choices = s.aged.choices := by rw [snapshotStates_calm none]
    rw [show s.runStarted.choices = s.aged.choices from kept, show s.aged.choices = s.ageStations.choices by simp [State.aged]]
    exact choices (froze.imp (fun h => h) fun h => stats ▸ h)
  · rw [record, if_pos gone]
  · rw [record, if_neg here]
  · have online : (s.station i).state = .online → (s.station i).state ≠ .absent := fun on => by rw [on]; decide
    have others : (s.station i).state = .joining ∨ (s.station i).state = .faulted ∨ (s.station i).state = .parked →
        (s.station i).state ≠ .absent ∧ (s.station i).state ≠ .online ∧ (s.station i).state ≠ .stale := by
      rintro (state | state | state) <;> rw [state] <;> decide
    refine ⟨fun gone => ?_, fun other => ?_, fun on soon => ?_, fun on late => ⟨?_, fun q reaches => ?_⟩, fun stale => ?_⟩
    · rw [entry, State.agedStation, if_neg (fun both => by rw [gone] at both; cases both.1),
        if_neg (by rw [gone]; decide)]
      exact if_pos gone
    · obtain ⟨present, off, fresh⟩ := others other
      rw [entry, State.agedStation, if_neg fun both => off both.1, if_neg fresh, grow_of_present present]
    · rw [entry, State.agedStation, if_neg fun both => of_decide_eq_false soon both.2, if_neg (by rw [on]; decide),
        grow_of_present (online on)]
    · rw [entry, State.agedStation, if_pos ⟨on, of_decide_eq_true late⟩, grow_of_present (online on)]
      unfold Station.staled Station.worst
      cases (s.station i).interlock <;> rfl
    · have turned : s.aged.station i = (s.station i).grow.staled := by
        rw [aged_station, State.agedStation, if_pos ⟨on, of_decide_eq_true late⟩]
      have fired := (agrees q _ _).trans (heard.agrees .stnStale i q)
      rw [State.noticesOf, on, turned] at fired
      exact mem_of_fired fired (endEvent_settled s.aged q) reaches
    · rw [entry, State.agedStation, if_neg (fun both => by rw [stale] at both; cases both.1), if_pos stale,
        grow_of_present (by rw [stale]; decide)]
      rfl
  · exact counts.congr rfl stats
  · have fired := heard.agrees .storeStale 0 q
    rw [onlyPair, if_pos ⟨rfl, rfl⟩] at fired
    exact (agrees q _ _).trans (hears_replicate .. ▸ fired)
  · exact (heard.notices (List.append_nil _) (List.append_nil _) (List.append_nil _) q).congr (agrees q) ⟨rfl, rfl⟩ rfl
  · exact (heard.readyNotice (List.append_nil _) q).congr (agrees q _ _) rfl
  · refine ((heard.agreesOff fun k i off => ?_).trans (settle_agreesOff ..)).differsOnly settled fun q => ?_
    · cases k <;> simp_all [State.noticesOf, onlyPair]
    · exact endEvent_settled s.aged q

end Sys2Proof.Machine

/-! PROOFS. ENG-HALT: what the halt answers, what it tells the router, and the state it leaves. -/

namespace Sys2Proof.Machine

/-! ### Held takes, one after the other -/

/-- Where no other take of the list is one of its station, a held take is answered in the state that those before it
left. -/
theorem answerEach_port {before after : List HeldTake} {k : HeldTake}
    (once : ((before ++ k :: after).map HeldTake.station).Nodup) (s : State) :
    ((before ++ k :: after).foldl State.answerHeldTake s).port (stationPort k.station) =
      { s.port (stationPort k.station) with
        replies := (s.port (stationPort k.station)).replies ++ [(before.foldl State.answerHeldTake s).takeAnswer k]
        handler := .idle } := by
  rw [List.map_append, List.map_cons, List.nodup_append] at once
  obtain ⟨-, later, apart⟩ := once
  have behind : ∀ h ∈ after, stationPort h.station ≠ stationPort k.station := fun h mem same =>
    (List.nodup_cons.1 later).1 (stationPort_injective same ▸ List.mem_map_of_mem mem)
  have ahead : ∀ h ∈ before, stationPort h.station ≠ stationPort k.station := fun h mem same =>
    apart _ (List.mem_map_of_mem mem) _ (List.mem_cons_self ..) (stationPort_injective same)
  rw [List.foldl_append, List.foldl_cons, answerHeldTakes_port_other behind, answerHeldTake_port, onPort, if_pos rfl,
    answerHeldTakes_port_other ahead]

/-- The answer to a take while HALTED: FIXED from the cleared record (R76, R78, R87). -/
def Station.haltedAnswer (e : Station) (x : Params) (tag : Byte) : Answer :=
  { kind := 4, tag := tag, code := if e.state = .absent then .refusedState else .fixed
    payload := if e.state = .absent then 0
      else f8 e.state.code ++ f16 (fixedCeiling x e) ++ f16 0 ++ 0#16 ++ 0#8 }

theorem takeAnswer_of_halted {s : State} (h : s.halted = true) (k : HeldTake) :
    s.takeAnswer k = (s.station k.station).haltedAnswer s.params k.tag := by
  have none : s.liveOffer Published.cleared k.station = 0 := by
    simp only [State.liveOffer, Published.cleared, look_replicate, Nat.zero_min]
  rw [State.takeAnswer, answerTake_of_halted h, Station.haltedAnswer]
  split
  · rfl
  · simp only [fixedReply, none]
    rfl

theorem haltedAnswer_congr {e f : Station} (state : e.state = f.state) (park : e.park = f.park)
    (applied : e.applied = f.applied) (rating : e.rating = f.rating) (x : Params) (tag : Byte) :
    e.haltedAnswer x tag = f.haltedAnswer x tag := by
  unfold Station.haltedAnswer fixedCeiling faultCapOf
  rw [state, park, applied, rating]

/-- The answer to a dispatch take while HALTED (R98, R99). -/
theorem answerDispatch_of_halted {s : State} (h : s.halted = true) :
    answerDispatch s =
      if s.storage.state = .absent then refuse .refusedState
      else { code := .fixed, payload := 0#16 ++ f8 (6 + 16 * s.storage.state.code) ++ f16 0 ++ f24 0 } := by
  simp only [answerDispatch, h, if_true]
  split
  · rfl
  · rfl

section
variable (s : State)

theorem answerHeldDispatch_port_other {q : Port} (h : q ≠ storagePort) : s.answerHeldDispatch.port q = s.port q := by
  unfold State.answerHeldDispatch
  split
  · rfl
  · rw [State.releaseHeld, port_updPort_eq, onPort, if_neg h.symm]
    rfl

/-- The held dispatch take is answered and its handler returns to IDLE (R99, R169). -/
theorem answerHeldDispatch_port {g : Byte} (h : s.storage.held = some g) :
    s.answerHeldDispatch.port storagePort =
      { s.port storagePort with
        handler := .idle
        replies := (s.port storagePort).replies ++
          [{ kind := 7, tag := g, code := (answerDispatch s).code, payload := (answerDispatch s).payload }] } := by
  simp only [State.answerHeldDispatch, h, State.releaseHeld, port_updPort_eq, onPort, if_true]
  rfl

theorem answerHeldDispatch_storage : s.answerHeldDispatch.storage = { s.storage with held := none } := by
  unfold State.answerHeldDispatch
  split
  · next none => rw [← none]
  · rfl

theorem answerHeldDispatch_none (h : s.storage.held = none) : s.answerHeldDispatch = s := by
  simp only [State.answerHeldDispatch, h]

end

/-! ### The halt as a whole -/

section
variable (s : State)

/-- The interlocks of a halt ended. -/
def State.haltClosed (s : State) : State := s.stopEngine.together State.cancelInterlock (stationIds.map fun i => [i])

theorem haltClosed_halted : s.haltClosed.halted = true :=
  together_keeps State.halted _ _ (fun _ _ => rfl) (fun t i => by simp) s.stopEngine

theorem haltClosed_kept : s.haltClosed.heldTakes = s.heldTakes ∧ s.haltClosed.storage = s.storage ∧
    s.haltClosed.ports = s.ports ∧ s.haltClosed.params = s.params :=
  ⟨together_keeps State.heldTakes _ _ (fun _ _ => rfl) (fun t i => by simp) s.stopEngine,
    together_keeps State.storage _ _ (fun _ _ => rfl) (fun t i => by simp) s.stopEngine,
    together_keeps State.ports _ _ (fun _ _ => rfl) (fun t i => by simp) s.stopEngine,
    together_keeps State.params _ _ (fun _ _ => rfl) (fun t i => by simp) s.stopEngine⟩

/-- The blocks that the answers to the held takes leave as they were. -/
theorem answerHeldTakes_blocks {s : State} (h : s.halted = true) :
    s.answerHeldTakes.router = s.router ∧ s.answerHeldTakes.stats = s.stats ∧ s.answerHeldTakes.stations = s.stations ∧
      s.answerHeldTakes.choices = s.choices := by
  have answered := answerHeldTakes_of_halted h
  refine ⟨?_, ?_, ?_, ?_⟩ <;> rw [answered]

/-- The notices of a halt: those of the interlocks' ends and of the flags found clear (R87, R89). -/
theorem haltEngine_told : s.Told s.haltEngine := by
  obtain ⟨order, perm, closed, -⟩ := cancelAll_closed (g := s.stopEngine) rfl
  have closed : s.stopEngine.ClosedBy s.haltClosed order := closed
  obtain ⟨router, stats, stations, -⟩ := answerHeldTakes_blocks (haltClosed_halted s)
  have final := haltEngine_station s
  have kept : s.haltEngine.stations = s.haltClosed.answerHeldTakes.evalReadyAll.stations :=
    answerHeldDispatch_stations s.stopEngine.grantHalt
  have entry : ∀ i, s.haltClosed.answerHeldTakes.station i = s.haltClosed.station i := station_congr stations
  have same : ∀ i, s.haltClosed.answerHeldTakes.evalReadyAll.station i = s.haltEngine.station i := fun i =>
    (station_congr kept i).symm
  have found : s.haltClosed.Told s.haltClosed.answerHeldTakes.evalReadyAll :=
    (State.Told.of_same router stats fun i => by rw [entry]; exact ⟨rfl, rfl, rfl⟩).trans (evalReadyAll_told _)
      (fun i => .inl (by rw [entry])) fun i => .inl (by rw [entry])
  have dispatched : s.haltClosed.answerHeldTakes.evalReadyAll.Told s.haltEngine :=
    .of_same (answerHeldDispatch_router s.stopEngine.grantHalt) (answerHeldDispatch_frame s.stopEngine.grantHalt).2.2.2.2.2.2.1
      fun i => by rw [same]; exact ⟨rfl, rfl, rfl⟩
  have told : s.stopEngine.Told s.haltEngine := by
    refine (closed.told.trans found (fun i => ?_) fun i => .inl ?_).trans dispatched (fun i => .inr (by rw [same])) fun i =>
      .inr (by rw [same])
    · rw [same, final]
      exact closed.ready i
    · rw [closed.entries]
      split
      · exact congrArg (· == StationState.stale) (worst_keeps _).1
      · rfl
  exact ⟨told.hears, told.latched, told.frozen⟩

theorem haltEngine_stations : s.haltEngine.stations = tabulate fun i => { (s.station i).worst with ready := false } :=
  table_ext fun i => by
    rw [look_tabulate]
    exact haltEngine_station s i

/-- The state of a halt before its dispatch take is answered. -/
theorem grantHalt_kept : s.stopEngine.grantHalt.storage = s.storage ∧ s.stopEngine.grantHalt.halted = true ∧
    s.stopEngine.grantHalt.stats = s.haltClosed.stats ∧ s.stopEngine.grantHalt.choices = s.haltClosed.choices ∧
    ∀ q, s.stopEngine.grantHalt.port q = (s.heldTakes.foldl State.answerHeldTake (s.haltClosed.setHeldTakes [])).port q := by
  have stopped := grantHalt_stopped s
  obtain ⟨held, storage, -, -⟩ := haltClosed_kept s
  have halted := haltClosed_halted s
  have ports : s.stopEngine.grantHalt.ports = s.haltClosed.answerHeldTakes.ports := by
    rw [stopped]
    rfl
  have listed : s.haltClosed.answerHeldTakes = s.heldTakes.foldl State.answerHeldTake (s.haltClosed.setHeldTakes []) := by
    rw [← held]
    rfl
  rw [← listed]
  refine ⟨?_, ?_, ?_, ?_, port_congr ports⟩
  · rw [stopped]
    exact storage
  · have engine : s.stopEngine.grantHalt.engine = s.haltClosed.engine := by
      rw [stopped]
      rfl
    rw [halted_congr engine, halted]
  · rw [stopped]
    rfl
  · rw [stopped]
    rfl

theorem haltEngine_kept : s.haltEngine.stats = s.haltClosed.stats ∧ s.haltEngine.choices = s.haltClosed.choices ∧
    s.haltEngine.storage = { s.storage with held := none } := by
  obtain ⟨storage, -, stats, choices, -⟩ := grantHalt_kept s
  rw [State.haltEngine, (answerHeldDispatch_frame _).2.2.2.2.2.2.1, (answerHeldDispatch_frame _).2.2.2.2.2.2.2.2.1,
    answerHeldDispatch_storage, storage]
  exact ⟨stats, choices, rfl⟩

theorem haltEngine_port_station (i : StationId) : s.haltEngine.port (stationPort i) =
    (s.heldTakes.foldl State.answerHeldTake (s.haltClosed.setHeldTakes [])).port (stationPort i) :=
  (answerHeldDispatch_port_other s.stopEngine.grantHalt (stationPort_ne_storagePort i)).trans
    ((grantHalt_kept s).2.2.2.2 _)

/-- A held take's port after a halt (R87). -/
theorem haltEngine_port_held (once : (s.heldTakes.map HeldTake.station).Nodup) {k : HeldTake} (mem : k ∈ s.heldTakes) :
    s.haltEngine.port (stationPort k.station) =
      { s.port (stationPort k.station) with
        handler := .idle
        replies := (s.port (stationPort k.station)).replies ++
          [(s.haltEngine.station k.station).haltedAnswer s.params k.tag] } := by
  obtain ⟨before, after, split⟩ := List.append_of_mem mem
  obtain ⟨-, -, ports, params⟩ := haltClosed_kept s
  have quiet := answerEach_of_halted before (s := s.haltClosed.setHeldTakes []) (haltClosed_halted s)
  have halted : (before.foldl State.answerHeldTake (s.haltClosed.setHeldTakes [])).halted = true := by
    rw [quiet]
    exact haltClosed_halted s
  have entry : (before.foldl State.answerHeldTake (s.haltClosed.setHeldTakes [])).station k.station =
      s.haltClosed.station k.station := by
    rw [quiet]
    rfl
  have config : (before.foldl State.answerHeldTake (s.haltClosed.setHeldTakes [])).params = s.params := by
    rw [quiet]
    exact params
  rw [haltEngine_port_station, split, answerEach_port (split ▸ once), takeAnswer_of_halted halted, entry, config]
  obtain ⟨order, perm, closed, -⟩ := cancelAll_closed (g := s.stopEngine) rfl
  have closing : s.haltClosed.station k.station = _ := closed.entries k.station
  rw [if_pos (perm.mem_iff.2 (mem_stationIds _))] at closing
  have answer : (s.haltClosed.station k.station).haltedAnswer s.params k.tag =
      (s.haltEngine.station k.station).haltedAnswer s.params k.tag := by
    rw [closing, haltEngine_station]
    exact haltedAnswer_congr rfl rfl rfl rfl ..
  have port : (s.haltClosed.setHeldTakes []).port (stationPort k.station) = s.port (stationPort k.station) :=
    port_congr ports _
  rw [answer, port]

theorem haltEngine_port_unheld {i : StationId} (free : i ∉ s.heldTakes.map HeldTake.station) :
    s.haltEngine.port (stationPort i) = s.port (stationPort i) := by
  have others : ∀ k ∈ s.heldTakes, stationPort k.station ≠ stationPort i := fun k mem same =>
    free (List.mem_map.2 ⟨k, mem, stationPort_injective same⟩)
  rw [haltEngine_port_station, answerHeldTakes_port_other others]
  exact port_congr (haltClosed_kept s).2.2.1 _

theorem haltEngine_port_storage_before : s.stopEngine.grantHalt.port storagePort = s.port storagePort := by
  rw [(grantHalt_kept s).2.2.2.2, answerHeldTakes_port_other fun k _ => stationPort_ne_storagePort k.station]
  exact port_congr (haltClosed_kept s).2.2.1 _

/-- The port of a held dispatch take after a halt (R99). -/
theorem haltEngine_port_dispatch {g : Byte} (held : s.storage.held = some g) :
    s.haltEngine.port storagePort =
      { s.port storagePort with
        handler := .idle
        replies := (s.port storagePort).replies ++
          [{ kind := 7, tag := g, code := if s.storage.state = .absent then .refusedState else .fixed
             payload := if s.storage.state = .absent then 0
               else 0#16 ++ f8 (6 + 16 * s.storage.state.code) ++ f16 0 ++ f24 0 }] } := by
  obtain ⟨storage, halted, -⟩ := grantHalt_kept s
  have answered := answerHeldDispatch_port s.stopEngine.grantHalt (g := g) (by rw [storage, held])
  rw [haltEngine_port_storage_before, answerDispatch_of_halted halted, storage] at answered
  refine answered.trans ?_
  split <;> rfl

theorem haltEngine_port_undispatched (none : s.storage.held = none) : s.haltEngine.port storagePort = s.port storagePort := by
  have unheld := answerHeldDispatch_none s.stopEngine.grantHalt (by rw [(grantHalt_kept s).1, none])
  exact (congrArg (fun t => State.port t storagePort) unheld).trans (haltEngine_port_storage_before s)

/-- What a halt leaves, but for the Statistics Unit, the router, the ports and the choices. -/
theorem haltEngine_eq : s.haltEngine =
    { s with
      engine := { s.engine with run := .halted, timer := .stopped, meter := none }
      published := Published.cleared
      stations := tabulate fun i => { (s.station i).worst with ready := false }
      heldTakes := []
      storage := { s.storage with held := none }
      stats := s.haltEngine.stats
      router := s.haltEngine.router
      ports := s.haltEngine.ports
      choices := s.haltEngine.choices } := by
  have engine := haltEngine_engine s
  have stations := haltEngine_stations s
  obtain ⟨-, -, storage⟩ := haltEngine_kept s
  have published : s.haltEngine.published = Published.cleared := by simp [State.haltEngine, State.stopEngine]
  have held : s.haltEngine.heldTakes = [] := by
    rw [State.haltEngine, (answerHeldDispatch_frame _).2.2.2.2.1, grantHalt_stopped]
  obtain ⟨params, ramp, lastClear, pending⟩ := haltEngine_frame s
  generalize s.haltEngine = u at *
  obtain ⟨⟩ := u
  dsimp only at *
  rw [params, engine, published, stations, held, storage, ramp, lastClear, pending]

end

/-! ### The command -/

section
variable {s u : State} {tag : Byte}

theorem port_replyOn (s : State) (p : Port) (k g : Byte) (c : AnswerCode) (x : BitVec 64) :
    (s.replyOn p k g c x).port = onPort s.port p
      { s.port p with
        replies := (s.port p).replies ++ [{ kind := k, tag := g, code := c, payload := x }] } := by
  rw [State.replyOn, State.pushAnswer, port_updPort_eq]
  rfl

/-- A halt that leaves every request queue empty lets no handler take (R169). -/
theorem engHalt_request (h : s.Listening supervisorPort)
    (served : serveEngHalt s.nextEvent = (u, { code := .ok, payload := 0 })) (marked : u.lastClear = none)
    (empty : ∀ q, (u.port q).requests = []) :
    exec (.engHalt supervisorPort tag) s = .next (u.endEvent.replyOn supervisorPort 19 tag .ok 0) := by
  have body : serveBody s.nextEvent supervisorPort { tag := tag, body := .engHalt } =
      (u, some { code := .ok, payload := 0 }) :=
    (supervisorOnly_supervisorPort _ _).trans (congrArg answered served)
  have quiet : ∀ q, (u.endEvent.replyOn supervisorPort 19 tag .ok 0).canTake q = false := fun q => by
    have none : ((u.endEvent.replyOn supervisorPort 19 tag .ok 0).port q).requests = [] := by
      rw [port_replyOn, onPort]
      split
      · exact empty supervisorPort
      · exact empty q
    unfold State.canTake
    dsimp only
    rw [none]
    simp only [List.isEmpty_nil, Bool.not_true, Bool.and_false, Bool.false_and]
  have taken : (s.nextEvent.serve supervisorPort { tag := tag, body := .engHalt }).endEvent =
      u.endEvent.replyOn supervisorPort 19 tag .ok 0 := by
    have unbroken := takingEnds_of_unlocked (s := s.nextEvent) (p := supervisorPort) (serves_supervisor h).unlocked .engHalt
    rw [State.serve, unbroken, body]
    exact congrArg State.endEvent (pushAnswer_replyOn marked ..)
  have arrived : s.request supervisorPort { tag := tag, body := .engHalt } = _ :=
    arrive_taken (s := s.nextEvent) (listening_setLastClear h none)
  rw [exec_of_requestOf (c := .engHalt supervisorPort tag) rfl, arrived, taken, runHandlers_of_quiet quiet]

end

theorem worst_unready (e : Station) :
    ({ e.worst with ready := false } : Station) =
      { e with
        applied := match e.interlock with
          | some r => max e.applied r.granted
          | none => e.applied
        interlock := none, ready := false } := by
  unfold Station.worst
  cases h : e.interlock <;> simp [h]

theorem serveEngHalt_of_halted {s : State} (h : s.halted = true) : serveEngHalt s = (s, { code := .ok, payload := 0 }) := by
  rw [serveEngHalt, if_pos h]

theorem serveEngHalt_of_started {s : State} (h : s.halted = false) :
    serveEngHalt s = (s.haltEngine, { code := .ok, payload := 0 }) := by
  rw [serveEngHalt, if_neg (by rw [h]; decide)]

/-- Settles O34: every interlock ends by the worst case (`cancelAll_closed`), every flag is found clear
(`haltEngine_station`), and the held takes are answered from the cleared record (`haltEngine_port_held`). -/
theorem engHaltStopsAndAnswers : Obligations.EngHaltStopsAndAnswers := by
  intro s tag h
  refine ⟨fun halted => ?_, fun running idle once => ?_⟩
  · have body : serveBody s.nextEvent supervisorPort { tag := tag, body := .engHalt } =
        (s.nextEvent, some { code := .ok, payload := 0 }) :=
      (supervisorOnly_supervisorPort _ _).trans (congrArg answered (serveEngHalt_of_halted (s := s.nextEvent) halted))
    have unbroken := takingEnds_of_unlocked (s := s.nextEvent) (p := supervisorPort) (serves_supervisor h).unlocked .engHalt
    have kept : PortsKept s.nextEvent
        (serveBody (s.nextEvent.takingEnds supervisorPort .engHalt) supervisorPort { tag := tag, body := .engHalt }).1 := by
      rw [unbroken, body]
      exact .of_ports rfl
    rw [exec_of_requestOf (c := .engHalt supervisorPort tag) rfl, request_of_kept h kept, State.serve, unbroken, body]
    exact congrArg Host.Outcome.next (endEvent_of_settled h.quiet.settled)
  have told := haltEngine_told s.nextEvent
  have parts := haltEngine_eq s.nextEvent
  have drained := haltEngine_shrinks s.nextEvent
  obtain ⟨stats, choices, -⟩ := haltEngine_kept s.nextEvent
  obtain ⟨-, -, -, counts, unchosen⟩ := cancelAll_closed (g := s.nextEvent.stopEngine) rfl
  have held := fun k mem => haltEngine_port_held s.nextEvent once (k := k) mem
  have unheld := fun i free => haltEngine_port_unheld s.nextEvent (i := i) free
  have dispatch := fun g held => haltEngine_port_dispatch s.nextEvent (g := g) held
  have undispatched := haltEngine_port_undispatched s.nextEvent
  have supervisor := haltEngine_port_supervisor s.nextEvent
  have counts : s.nextEvent.stopEngine.CountsTogether s.nextEvent.haltClosed _ := counts
  have unchosen : _ ∨ s.nextEvent.haltClosed.stats.frozen = false → s.nextEvent.haltClosed.choices = s.choices := unchosen
  have arrived := fun marked empty => engHalt_request (u := s.nextEvent.haltEngine) (tag := tag) h
    (serveEngHalt_of_started (s := s.nextEvent) running) marked empty
  generalize s.nextEvent.haltEngine = u at *
  have agrees : ∀ q k j, u.endEvent.router.AgreesAt u.router k j q := fun q k j => settle_agrees _ k j q
  have final : (u.endEvent.replyOn supervisorPort 19 tag .ok 0).port = onPort u.port supervisorPort
      { u.port supervisorPort with
        replies := (u.port supervisorPort).replies ++ [{ kind := 19, tag := tag, code := .ok, payload := 0 }] } :=
    port_replyOn ..
  have empty : ∀ q, (u.port q).requests = [] := fun q =>
    List.length_eq_zero_iff.1 (Nat.le_zero.1 ((drained q).trans (Nat.le_of_eq (congrArg List.length (idle q)))))
  have marked : u.lastClear = none := by rw [parts]; rfl
  have others : ∀ q, q ≠ supervisorPort → (u.endEvent.replyOn supervisorPort 19 tag .ok 0).port q = u.port q :=
    fun q other => by rw [final, onPort, if_neg other.symm]
  have told : s.Told u := ⟨told.hears, told.latched, told.frozen⟩
  have entry : ∀ i, u.station i = { (s.station i).worst with ready := false } := fun i => by
    rw [parts]
    exact look_tabulate ..
  have quiet : ∀ k i, k ≠ .raiseReady → k ≠ .statsFreeze → s.noticesOf u k i = [] := fun k i other unfrozen => by
    have kept := worst_keeps (s.station i)
    have state : (u.station i).state = (s.station i).state := by rw [entry, kept.1]
    have statuses : (u.station i).statuses = (s.station i).statuses := by rw [entry, kept.2.2.1]
    cases k
    case raiseReady => exact absurd rfl other
    case statsFreeze => exact absurd rfl unfrozen
    case stnStale => rw [State.noticesOf, state, flipped_same]
    case stnMonitor =>
      rw [State.noticesOf, newStatuses_of_same statuses]
      rfl
    all_goals rfl
  simp only [worst_unready] at parts
  refine ⟨_, arrived marked empty, ?_, ?_, fun froze => ?_, ?_, fun i q => ⟨?_, ?_⟩, fun k mem => ?_, fun g held => ?_, ?_,
    fun i free => ?_, fun none => ?_⟩
  · rw [parts]
    rfl
  · have lists : (stationIds.map fun i => (s.station i).endEvents i) = stationIds.map fun i =>
        match (s.station i).interlock with
        | some r => [⟨.interlockEnd, r.granted - (s.station i).applied, stationPort i⟩]
        | none => [] := List.map_congr_left fun i _ => by
      unfold Station.endEvents
      cases (s.station i).interlock <;> rfl
    exact lists ▸ counts.congr rfl stats
  · exact choices.trans (unchosen (froze.imp (fun h => h) fun h => stats ▸ h))
  · refine ((told.hears.agreesOff fun k i off => ?_).trans (settle_agreesOff ..)).differsOnly h.quiet.settled fun q =>
      endEvent_settled u q
    simp only [Bool.or_eq_false_iff, beq_eq_false_iff_ne] at off
    exact quiet k i off.1 off.2
  · exact (told.notices i q).congr (t' := u.endEvent.replyOn supervisorPort 19 tag .ok 0) (agrees q) ⟨rfl, rfl⟩ rfl
  · exact (told.readyNotice i q).congr (agrees q _ _) rfl
  · rw [others _ (stationPort_ne_supervisorPort _)]
    exact held k mem
  · rw [others _ (by decide)]
    exact dispatch g held
  · rw [final, onPort, if_pos rfl, supervisor]
    rfl
  · rw [others _ (stationPort_ne_supervisorPort _)]
    exact unheld i free
  · rw [others _ (by decide)]
    exact undispatched none

end Sys2Proof.Machine

/-! PROOFS. CEIL-APPLY: the interlock closed by its echo, and the refusal of one that closes nothing. -/

namespace Sys2Proof.Machine

/-! ### An interlock closed -/

/-- The entry of a closed interlock (R81, R82), before raise-ready is found. -/
def State.applyClosed (s : State) (i : StationId) (applied : Nat) : State :=
  s.updStation i fun e => { e with applied := applied, interlock := none }

section
variable {s : State} {i : StationId} {echo : BitVec 16} {r : Interlock}

theorem applyClosed_station (s : State) (i : StationId) (applied : Nat) :
    (s.applyClosed i applied).station i = { s.station i with applied := applied, interlock := none } := by
  rw [State.applyClosed, station_updStation, if_pos rfl]

theorem serveCeilApply_of_grant (opened : (s.station i).interlock = some r) (within : echo.toNat ≤ r.granted) :
    serveCeilApply s i echo =
      ((s.applyClosed i echo.toNat).evalReady i, { code := .ok, payload := applyPayload echo.toNat r.granted }) := by
  simp only [serveCeilApply, opened, within, if_true, State.applyClosed]

theorem serveCeilApply_of_high (opened : (s.station i).interlock = some r) (high : r.granted < echo.toNat) :
    serveCeilApply s i echo =
      ((s.applyClosed i (min echo.toNat (s.station i).rating)).respondEnd i .echoHigh,
        { code := .okClamped, payload := applyPayload (min echo.toNat (s.station i).rating) r.granted }) := by
  simp only [serveCeilApply, opened, Nat.not_le.2 high, if_false, State.applyClosed, State.respondEnd]

theorem serveCeilApply_of_absent (closed : (s.station i).interlock = none) (absent : (s.station i).state = .absent) :
    serveCeilApply s i echo = (s, refuse .refusedState) := by
  simp only [serveCeilApply, closed, absent, if_true]

theorem serveCeilApply_of_unpaired (closed : (s.station i).interlock = none) (present : (s.station i).state ≠ .absent) :
    serveCeilApply s i echo =
      ((s.unpaired i).evalReady i, { code := .refusedUnpaired, payload := applyPayload (s.station i).applied 0 }) := by
  simp only [serveCeilApply, closed, present, if_false]

theorem serveBody_ceilApply (s : State) (i : StationId) (tag : Byte) (echo : BitVec 16) :
    serveBody s (stationPort i) { tag := tag, body := .ceilApply echo } = answered (serveCeilApply s i echo) := by
  simp only [serveBody, roleOf_stationPort]

theorem echo_payload (echo : BitVec 16) (granted : Nat) : applyPayload echo.toNat granted = echo ++ f16 granted ++ 0#32 := by
  rw [applyPayload, f16, BitVec.ofNat_toNat, BitVec.setWidth_eq]
  rfl

end

/-! ### Nothing to close -/

/-- The source events of the parts of a refused CEIL-APPLY (R83). -/
def State.unpairedEvents (s : State) (i : StationId) : UnpairedPart → List SourceEvent
  | .counted => [⟨.unpairedApply, 0, stationPort i⟩]
  | .judged => (s.station i).faultEvents s.params.monInterlock i

/-- The entry after some of the parts of a refused CEIL-APPLY. -/
def State.unpairedEntry (s : State) (i : StationId) (done : List UnpairedPart) : Station :=
  if .judged ∈ done then
    { (s.station i).afterEvent s.params.monInterlock .unpaired with
      ready := if (s.station i).wouldFault s.params.monInterlock then false else (s.station i).ready }
  else s.station i

/-- The state after some of the parts of a refused CEIL-APPLY. -/
structure State.UnpairedBy (s t : State) (i : StationId) (done : List UnpairedPart) : Prop where
  act : ({ s with choices := t.choices } : State).Act t i (done.flatMap (s.unpairedEvents i))
  told : ({ s with choices := t.choices } : State).Told t
  entry : t.station i = s.unpairedEntry i done

section
variable {s t : State} {i : StationId} {done : List UnpairedPart}

theorem unpairedBy_counted (h : s.UnpairedBy t i done) :
    s.UnpairedBy (t.unpairedPart i .counted) i (done ++ [.counted]) := by
  have next := statEvent_act t i .unpairedApply 0 (stationPort i)
  have choices : (t.unpairedPart i .counted).choices = t.choices := next.choices
  have entry : (t.unpairedPart i .counted).station i = t.station i := (statEvent_reads ..).2.1 i
  refine ⟨?_, ?_, ?_⟩
  · rw [choices, List.flatMap_append, List.flatMap_singleton]
    exact h.act.trans next
  · rw [choices]
    exact h.told.join (statEvent_told t .unpairedApply 0 (stationPort i)) h.act (.inr (by rw [entry]))
      (.inr (by rw [entry]))
  · rw [entry, h.entry]
    simp [State.unpairedEntry]

theorem unpairedBy_judged (h : s.UnpairedBy t i done) (fresh : .judged ∉ done) (closed : (s.station i).interlock = none) :
    s.UnpairedBy (t.unpairedPart i .judged) i (done ++ [.judged]) := by
  have here : t.station i = s.station i := by rw [h.entry, State.unpairedEntry, if_neg fresh]
  have params : t.params = s.params := h.act.params
  have next := monitorEvent_act (s := t) (i := i) .unpaired fun _ => by rw [here, closed]
  have entry := monitorEvent_station (s := t) (i := i) .unpaired fun _ => by rw [here, closed]
  rw [here, params] at next entry
  have choices : (t.unpairedPart i .judged).choices = t.choices := next.choices
  refine ⟨?_, ?_, ?_⟩
  · rw [choices, List.flatMap_append, List.flatMap_singleton]
    exact h.act.trans next
  · rw [choices]
    exact h.told.join (monitorEvent_told t i .unpaired) h.act (.inl (by rw [here]; rfl)) (.inl (by rw [here]; rfl))
  · rw [State.unpairedEntry, if_pos (by simp)]
    exact entry

/-- Whether a refused CEIL-APPLY is an event of the interlock monitor (R83). -/
def State.judgesUnpaired (s : State) (i : StationId) : Bool := (s.station i).state == .online && !s.halted

/-- A refused CEIL-APPLY of an entry with no interlock: the entry, the notices, the source events and the choices. -/
theorem unpaired_result (closed : (s.station i).interlock = none) :
    ∃ es, ({ s with choices := (s.unpaired i).choices } : State).Act (s.unpaired i) i es ∧ s.Told (s.unpaired i) ∧
      (s.unpaired i).station i = (if s.judgesUnpaired i then
        { (s.station i).afterEvent s.params.monInterlock .unpaired with
          ready := if (s.station i).wouldFault s.params.monInterlock then false else (s.station i).ready }
        else s.station i) ∧
      s.CountsTogether (s.unpaired i) [[⟨.unpairedApply, 0, stationPort i⟩],
        if s.judgesUnpaired i && (s.station i).wouldFault s.params.monInterlock then [⟨.faultEntry, 0, stationPort i⟩]
        else []] ∧
      (s.stats.frozen = true ∨ (s.unpaired i).stats.frozen = false → (s.unpaired i).choices = s.choices) := by
  let parts : List (List UnpairedPart) := if s.judgesUnpaired i then [[.counted], [.judged]] else [[.counted]]
  have unpaired : s.unpaired i = s.together (fun t x => t.unpairedPart i x) parts := by
    unfold parts State.unpaired State.judgesUnpaired
    cases (s.station i).state <;> rfl
  have nodup : parts.flatten.Nodup := by
    unfold parts
    cases s.judgesUnpaired i <;> decide
  obtain ⟨order, whole, left, counts, choices⟩ := together_steps (s := s) (act := fun t x => t.unpairedPart i x)
    (parts := parts) (s.unpairedEvents i) (P := fun done t => s.UnpairedBy t i done)
    (fun n => ⟨.refl _ i, .of_same rfl rfl fun _ => ⟨rfl, rfl, rfl⟩, rfl⟩)
    (fun {done x rest t} whole h => by
      cases x with
      | counted => exact unpairedBy_counted h
      | judged => exact unpairedBy_judged h (whole.next_fresh nodup).1 closed)
    (fun {_ t} h => h.act.stats.trans (statEvents_stats_congr (s := { s with choices := t.choices }) (t := s) rfl _)) fun t x => by cases x <;> simp [State.unpairedPart]
  rw [← unpaired] at left counts choices
  refine ⟨_, left.act, ⟨left.told.hears, left.told.latched, left.told.frozen⟩, ?_, ?_, choices⟩
  · have judged : .judged ∈ order ↔ s.judgesUnpaired i = true := by
      rw [whole.perm.mem_iff]
      unfold parts
      cases s.judgesUnpaired i <;> decide
    rw [left.entry, State.unpairedEntry]
    simp only [judged]
  · refine counts.regroup (fun l mem => ?_) (List.Perm.of_eq ?_)
    · rcases List.mem_cons.1 mem with rfl | mem
      · exact le_rfl
      · obtain rfl := List.mem_singleton.1 mem
        split <;> simp
    · unfold parts
      cases judged : s.judgesUnpaired i
      · rfl
      · simp [State.unpairedEvents, Station.faultEvents]

end

/-! ### The command -/

/-- The refusal as a whole: raise-ready is found after the parts (R83, R89). -/
theorem unpaired_found {s : State} {i : StationId} (closed : (s.station i).interlock = none) :
    ∃ es, ({ s with choices := (s.unpaired i).choices } : State).Act ((s.unpaired i).evalReady i) i es ∧
      s.Told ((s.unpaired i).evalReady i) ∧
      ((s.unpaired i).evalReady i).station i =
        { (if s.judgesUnpaired i then (s.station i).afterEvent s.params.monInterlock .unpaired else s.station i) with
          ready := ((s.unpaired i).evalReady i).readyCondition i } := by
  obtain ⟨es, act, told, entry, -⟩ := unpaired_result closed
  have found := evalReady_station (s.unpaired i) i
  have before : ({ s with choices := (s.unpaired i).choices } : State).Told (s.unpaired i) :=
    ⟨told.hears, told.latched, told.frozen⟩
  have both := before.join (evalReady_told (s.unpaired i) i) act
  refine ⟨es, act.quiet (evalReady_act _ i), ?_, ?_⟩
  · have joined := both ?_ (.inr (by rw [found]))
    · exact ⟨joined.hears, joined.latched, joined.frozen⟩
    · by_cases fault : s.judgesUnpaired i = true ∧ (s.station i).wouldFault s.params.monInterlock = true
      · have unready : (s.unpaired i).readyCondition i = false :=
          readyCondition_of_not_online (by rw [entry, if_pos fault.1]; simp [Station.afterEvent, fault.2])
        right
        rw [found, entry, if_pos fault.1, unready]
        exact if_pos fault.2
      · left
        rw [entry]
        split
        · next judged => exact if_neg fun faults => fault ⟨judged, faults⟩
        · rfl
  · rw [readyCondition_evalReady, found, entry]
    split <;> rfl

/-- A request taken where no interlock ends first leaves what its service left, settled, with the answer. -/
theorem exec_of_served {s u : State} {c : Instr} {p : Port} {r : Request} {x : Reply} (h : s.Listening p)
    (hc : requestOf c = some (p, r)) (unbroken : s.nextEvent.takingEnds p r.body = s.nextEvent)
    (hb : serveBody s.nextEvent p r = answered (u, x)) (hr : r.body ≠ .engHalt) (marked : u.lastClear = none) :
    exec c s = .next (u.endEvent.replyOn p r.body.kind r.tag x.code x.payload) := by
  rw [exec_of_requestOf hc, request_of_listening h hr, State.serve, unbroken, hb, ← endEvent_replyOn,
    ← pushAnswer_replyOn marked]
  rfl

/-- An echo above the grant, taken: the closed entry has an event of the overshoot monitor (R82). -/
theorem exec_ceilApply_high {s : State} {i : StationId} {tag : Byte} {echo : BitVec 16} {r : Interlock} {stored : Nat}
    (h : s.Listening (stationPort i)) (opened : (s.station i).interlock = some r) (high : r.granted < echo.toNat)
    (limit : min echo.toNat (s.station i).rating = stored) :
    ∃ t, exec (.ceilApply (stationPort i) tag echo) s = .next t ∧
      s.Concluded t ((s.nextEvent.applyClosed i stored).respondEnd i .echoHigh) i
        ((s.station i).faultEvents s.params.monOvershoot i) (stationPort i) { tag := tag, body := .ceilApply echo }
        { code := .okClamped, payload := applyPayload stored r.granted } := by
  have unbroken := takingEnds_of_own s.nextEvent i (.ceilApply echo) (.inr ⟨echo, rfl⟩)
  have served := serveBody_ceilApply s.nextEvent i tag echo
  rw [serveCeilApply_of_high (s := s.nextEvent) opened high,
    show min echo.toNat (s.nextEvent.station i).rating = stored from limit] at served
  have entry := applyClosed_station s.nextEvent i stored
  have shut : ((s.nextEvent.applyClosed i stored).station i).state = .online →
      ((s.nextEvent.applyClosed i stored).station i).interlock = none := fun _ => by rw [entry]
  have ended := respondEnd_act .echoHigh shut
  have told := respondEnd_told .echoHigh shut
  rw [entry] at ended
  have closing := updStation_act s.nextEvent i fun e => { e with applied := stored, interlock := none }
  have quiet := updStation_told s.nextEvent i (fun e => { e with applied := stored, interlock := none }) rfl rfl rfl
  exact exec_of_act h (c := .ceilApply (stationPort i) tag echo) rfl unbroken served (by simp) (closing.trans ended)
    (quiet.join told closing (.inl (by rw [station_updStation, if_pos rfl])) (.inl (by rw [station_updStation, if_pos rfl])))

/-- Settles O18: with an interlock open the echo closes it, and above the grant that is an event of the overshoot monitor
(`respondEnd_station`); with none open the refusal's parts come in either order (`unpaired_result`). -/
theorem ceilApplyPairedAndUnpaired : Obligations.CeilApplyPairedAndUnpaired := by
  refine ⟨fun s i tag echo r h opened => ?_, fun s i tag echo h => ?_⟩
  · have unbroken := takingEnds_of_own s.nextEvent i (.ceilApply echo) (.inr ⟨echo, rfl⟩)
    have served := serveBody_ceilApply s.nextEvent i tag echo
    refine ⟨fun within => ?_, fun high => ?_⟩
    · rw [serveCeilApply_of_grant (s := s.nextEvent) opened within] at served
      have whole := evalReady_endEvent (s := s.nextEvent.applyClosed i echo.toNat) h.quiet.settled i
      have arrived := exec_of_served h (c := .ceilApply (stationPort i) tag echo) rfl unbroken served (by simp) (by simp; rfl)
      rw [arrived, whole, echo_payload, applyClosed_station]
      rfl
    · generalize limit : min echo.toNat (s.station i).rating = stored
      obtain ⟨t, arrived, done⟩ := exec_ceilApply_high (tag := tag) h opened high limit
      have ended := respondEnd_station (s := s.nextEvent.applyClosed i stored) (i := i) .echoHigh fun _ => by
        rw [applyClosed_station]
      refine ⟨t, arrived, ?_, ?_, done.differs, fun q => ⟨done.notices q, done.readyNotice q⟩⟩
      · refine done.same.trans ?_
        rw [done.ready, ended, applyClosed_station, updStation_updStation]
        rfl
      · rw [done.stats, statEvents_faultEvents]
  · have closed : (s.nextEvent.station i).interlock = none := closed_of_serves (s := s.nextEvent) (serves_setLastClear h none)
    have unbroken := takingEnds_of_own s.nextEvent i (.ceilApply echo) (.inr ⟨echo, rfl⟩)
    have served := serveBody_ceilApply s.nextEvent i tag echo
    refine ⟨fun absent => ?_, fun present => ?_⟩
    · rw [serveCeilApply_of_absent (s := s.nextEvent) closed absent] at served
      exact exec_of_unbroken h.listening (c := .ceilApply (stationPort i) tag echo) rfl unbroken served (by simp) rfl
        h.listening.quiet.settled
    rw [serveCeilApply_of_unpaired (s := s.nextEvent) closed present] at served
    obtain ⟨-, -, -, -, counts, choices⟩ := unpaired_result closed
    obtain ⟨es, act, told, entry⟩ := unpaired_found closed
    have stats : ((s.nextEvent.unpaired i).evalReady i).stats = (s.nextEvent.unpaired i).stats := by simp
    have chosen : ((s.nextEvent.unpaired i).evalReady i).choices = (s.nextEvent.unpaired i).choices := act.choices
    have arrived := fun marked => exec_of_served h.listening (c := .ceilApply (stationPort i) tag echo) rfl unbroken served
      (by simp) marked
    generalize (s.nextEvent.unpaired i).evalReady i = u at *
    have agrees : ∀ q k j, u.endEvent.router.AgreesAt u.router k j q := fun q k j => settle_agrees _ k j q
    have told : s.Told u := told.of_nextEvent
    refine ⟨_, arrived (by rw [act.same]; rfl), ?_, counts.congr rfl stats, fun froze => ?_, ?_, fun q => ⟨?_, ?_⟩⟩
    · have whole : u = { s with
          stations := put s.stations i (u.station i), stats := u.stats, router := u.router, choices := u.choices
          lastClear := none } := by
        have stations : u.stations = put s.stations i (u.station i) := act.stations_eq
        rw [chosen, ← stations]
        exact act.same
      have replied : u.endEvent.replyOn (stationPort i) 5 tag .refusedUnpaired (applyPayload (s.station i).applied 0) =
          { (s.updStation i fun _ => u.station i).replyOn (stationPort i) 5 tag .refusedUnpaired
              (applyPayload (s.station i).applied 0) with
            stats := u.stats, router := u.endEvent.router, choices := u.choices } :=
        congrArg (fun w : State =>
          { w.replyOn (stationPort i) 5 tag .refusedUnpaired (applyPayload (s.station i).applied 0) with
            router := u.endEvent.router }) whole
      have ready : (u.endEvent.replyOn (stationPort i) 5 tag .refusedUnpaired
          (applyPayload (s.station i).applied 0)).readyCondition i = u.readyCondition i :=
        readyCondition_congr (b := (u.station i).ready) rfl rfl rfl rfl
      refine replied.trans ?_
      rw [entry, ← ready]
      rfl
    · exact chosen.trans (choices (froze.imp (fun h => h) fun h => stats ▸ h))
    · exact ((told.agreesOff act.others).trans (settle_agreesOff ..)).differsOnly h.listening.quiet.settled fun q =>
        endEvent_settled u q
    · exact (told.notices i q).congr (agrees q) ⟨rfl, rfl⟩ rfl
    · exact (told.readyNotice i q).congr (agrees q _ _) rfl

end Sys2Proof.Machine

/-! PROOFS. PORT-RESET: what it leaves of the entry and of the record behind the port, and the notices it gives. -/

namespace Sys2Proof.Machine

/-! ### The entry of a station port (R68, R86) -/

/-- An entry after PORT-RESET of its port. -/
def Station.restarted (e : Station) : Station :=
  if e.state = .absent then e
  else
    { e with
      state := e.joinState, park := none, age := 0
      applied := match e.interlock with
        | some r => max e.applied r.granted
        | none => e.applied
      interlock := none
      staleDuration := if e.state = .stale then 0 else e.staleDuration
      ready := if e.state = e.joinState ∧ e.interlock = none then e.ready else false }

/-- The source event of PORT-RESET behind a station port: an interlock of an entry that is not ABSENT ends (R86). -/
def Station.restartEvents (e : Station) (i : StationId) : List SourceEvent :=
  if e.state = .absent then [] else e.endEvents i

section
variable {s : State} {i : StationId}

theorem joinState_fresh (e : Station) : e.joinState ≠ .online ∧ e.joinState ≠ .stale ∧ e.joinState ≠ .absent :=
  ⟨joinState_ne (by decide) (by decide), joinState_ne (by decide) (by decide), joinState_ne (by decide) (by decide)⟩

theorem enterJoining_eq (s : State) (i : StationId) : s.enterJoining i = s.setEntryState i (s.station i).joinState := rfl

/-- The entry behind the port once it has left its state, before its interlock ends. -/
theorem enterJoining_station (s : State) (i : StationId) :
    (s.enterJoining i).station i =
      if (s.station i).state = (s.station i).joinState then s.station i
      else { (s.station i).moved (s.station i).joinState with ready := false } := by
  rw [enterJoining_eq]
  split
  · next same => rw [setEntryState_same same]
  · next changed =>
    have moved := setEntryState_station changed
    have unready : (s.setEntryState i (s.station i).joinState).readyCondition i = false :=
      readyCondition_of_not_online (by rw [moved]; exact (joinState_fresh _).1)
    rw [moved, unready]

/-- An interlock of an entry that is not ONLINE ends by the worst case, its flag clear. -/
theorem cancelInterlock_offline (h : (s.station i).state ≠ .online) :
    (s.cancelInterlock i).station i =
      { (s.station i).worst with
        ready := if (s.station i).interlock = none then (s.station i).ready else false } := by
  cases opened : (s.station i).interlock with
  | none =>
    rw [cancelInterlock_of_none opened, worst_of_none opened]
    rfl
  | some r =>
    have unready : (s.endRecord i).readyCondition i = false :=
      readyCondition_of_not_online (by rw [endRecord_station, (worst_keeps _).1]; exact h)
    rw [cancelInterlock_of_some (opened ▸ rfl), evalReady_station, endRecord_station, unready]
    rfl

theorem enterJoining_offline (s : State) (i : StationId) : ((s.enterJoining i).station i).state ≠ .online := by
  rw [enterJoining_station]
  split
  · next same =>
    rw [same]
    exact (joinState_fresh _).1
  · exact (joinState_fresh _).1

/-- The entry with its state left and its interlock ended. -/
def Station.rejoined (e : Station) : Station :=
  { e with
    state := e.joinState
    applied := match e.interlock with
      | some r => max e.applied r.granted
      | none => e.applied
    interlock := none
    staleDuration := if e.state = .stale then 0 else e.staleDuration
    ready := if e.state = e.joinState ∧ e.interlock = none then e.ready else false }

theorem rejoin_station (s : State) (i : StationId) :
    ((s.enterJoining i).cancelInterlock i).station i = (s.station i).rejoined := by
  rw [cancelInterlock_offline (enterJoining_offline s i), enterJoining_station, Station.rejoined]
  have fresh := joinState_fresh (s.station i)
  by_cases same : (s.station i).state = (s.station i).joinState
  · have unstale : (s.station i).state ≠ .stale := same ▸ fresh.2.1
    simp only [same, true_and, if_neg (same ▸ unstale : (s.station i).joinState ≠ .stale)]
    unfold Station.worst
    cases opened : (s.station i).interlock <;> simp [← same, opened]
  · simp only [same, false_and, if_false, ite_self]
    unfold Station.moved Station.worst
    by_cases online : (s.station i).state = .online
    · cases opened : (s.station i).interlock <;> simp [online, opened]
    · cases opened : (s.station i).interlock <;> simp [online, opened]

theorem rejoin_act (s : State) (i : StationId) :
    s.Act ((s.enterJoining i).cancelInterlock i) i ((s.station i).endEvents i) := by
  have both := (setEntryState_act s i (s.station i).joinState).trans (cancelInterlock_act (s.enterJoining i) i)
  have events : (s.station i).moveEvents (s.station i).joinState i ++ ((s.enterJoining i).station i).endEvents i =
      (s.station i).endEvents i := by
    rw [enterJoining_station, Station.moveEvents]
    by_cases online : (s.station i).state = .online
    · have changed : (s.station i).state ≠ (s.station i).joinState := online ▸ (joinState_fresh _).1.symm
      have closed : ((s.station i).moved (s.station i).joinState).interlock = none := by
        unfold Station.moved
        rw [if_pos online]
        exact worst_interlock _
      have nothing : ({ (s.station i).moved (s.station i).joinState with ready := false } : Station).endEvents i = [] :=
        endEvents_of_none closed i
      rw [if_pos ⟨online, (joinState_fresh _).1⟩, if_neg changed, nothing, List.append_nil]
    · rw [if_neg fun both => online both.1, List.nil_append]
      split
      · rfl
      · unfold Station.moved
        rw [if_neg online]
        rfl
  exact events ▸ both

theorem rejoin_told (s : State) (i : StationId) : s.Told ((s.enterJoining i).cancelInterlock i) := by
  refine (setEntryState_told (joinState_fresh _).2.1).join (cancelInterlock_told (s.enterJoining i) i)
    (setEntryState_act s i _) ?_ (.inr ?_)
  · rw [← enterJoining_eq, enterJoining_station]
    split
    · exact .inl rfl
    · next changed =>
      right
      rw [rejoin_station]
      exact (if_neg fun both => changed both.1).symm
  · rw [← enterJoining_eq, rejoin_station, enterJoining_station, Station.rejoined]
    split
    · next same => rw [same]
    · rfl

theorem resetEntry_of_present (h : (s.station i).state ≠ .absent) :
    s.resetEntry i = ((s.enterJoining i).cancelInterlock i).updStation i fun e => { e with park := none, age := 0 } := if_neg h

theorem resetEntry_station (s : State) (i : StationId) : (s.resetEntry i).station i = (s.station i).restarted := by
  by_cases absent : (s.station i).state = .absent
  · rw [State.resetEntry, if_pos absent, Station.restarted, if_pos absent]
  · rw [resetEntry_of_present absent, station_updStation, if_pos rfl, rejoin_station, Station.restarted, if_neg absent]
    rfl

theorem resetEntry_act (s : State) (i : StationId) : s.Act (s.resetEntry i) i ((s.station i).restartEvents i) := by
  by_cases absent : (s.station i).state = .absent
  · rw [State.resetEntry, if_pos absent, Station.restartEvents, if_pos absent]
    exact .refl s i
  · rw [resetEntry_of_present absent, Station.restartEvents, if_neg absent]
    exact (rejoin_act s i).quiet (updStation_act _ i _)

theorem resetEntry_told (s : State) (i : StationId) : s.Told (s.resetEntry i) := by
  by_cases absent : (s.station i).state = .absent
  · rw [State.resetEntry, if_pos absent]
    exact .of_same rfl rfl fun _ => ⟨rfl, rfl, rfl⟩
  · rw [resetEntry_of_present absent]
    exact (rejoin_told s i).join (updStation_told _ i (fun e => { e with park := none, age := 0 }) rfl rfl rfl)
      (rejoin_act s i) (.inr (by rw [station_updStation, if_pos rfl])) (.inr (by rw [station_updStation, if_pos rfl]))

end

/-! ### The record of the storage port (R100) -/

/-- The record after PORT-RESET of its port. -/
def Storage.restarted (x : Storage) : Storage :=
  if x.state = .absent then { x with held := none } else { x with held := none, state := .joining, age := 0 }

theorem resetStorage_eq (s : State) :
    s.resetStorage = { s with
      storage := s.storage.restarted, router := s.router.endedIf (s.storage.state == .stale) .storeStale 0 } := by
  unfold State.resetStorage State.leaveStorageStale Storage.restarted
  by_cases absent : s.storage.state = .absent
  · simp only [State.setStorage, absent, if_true]
    rfl
  · by_cases stale : s.storage.state = .stale
    · simp only [State.setStorage, stale, reduceCtorEq, if_false, if_true]
      rfl
    · simp only [State.setStorage, absent, stale, if_false, beq_eq_false_iff_ne.2 stale]
      rfl

/-! ### What stands behind a port -/

/-- The held takes that PORT-RESET of a port leaves (R86). -/
def State.keptTakes (s : State) (p : Port) : List HeldTake :=
  match roleOf p with
  | .station i => s.heldTakes.filter fun h => h.station != i
  | .storage | .supervisor => s.heldTakes

/-- The source events of the reset of what stands behind a port. -/
def State.behindEvents (s : State) (p : Port) : List SourceEvent :=
  match roleOf p with
  | .station i => (s.station i).restartEvents i
  | .storage | .supervisor => []

/-- What the router hears of the reset of the record. -/
def State.behindEnds (s : State) (p : Port) : List Notice :=
  if p = storagePort ∧ s.storage.state = .stale then [.ends .storeStale 0] else []

/-- `u` is `t` with a port cleared and what stands behind it reset. -/
structure State.ClearedBehind (t u : State) (p : Port) : Prop where
  same : u = { t with
    ports := (t.updPort p PortState.cleared).ports, stations := u.stations, heldTakes := t.keptTakes p
    storage := if p = storagePort then t.storage.restarted else t.storage, stats := u.stats, router := u.router }
  entries : ∀ i, u.station i = if p = stationPort i then (t.station i).restarted else t.station i
  stats : u.stats = (t.statEvents (t.behindEvents p)).stats
  hears : t.Hears u fun k i => t.noticesOf u k i ++ onlyPair .storeStale 0 (t.behindEnds p) k i
  latched : ∀ i, (t.station i).Latched (u.station i)
  frozen : t.stats.frozen = true → u.stats.frozen = true

/-- Where no entry changed and the unit counted nothing there is nothing to tell. -/
theorem noticesOf_unchanged {t u : State} (stations : ∀ i, u.station i = t.station i) (stats : u.stats = t.stats)
    (k : CauseKind) (i : StationId) : t.noticesOf u k i = [] := by
  cases k <;> simp only [State.noticesOf, stations, flipped_same, newStatuses_of_same, List.replicate_zero,
    freezings_congr (s := t) (t := t) rfl stats, freezings_self, ite_self]

theorem State.Told.hearsBehind {t u : State} (h : t.Told u) {p : Port} (other : p ≠ storagePort) :
    t.Hears u fun k i => t.noticesOf u k i ++ onlyPair .storeStale 0 (t.behindEnds p) k i :=
  h.hears.of_eq fun k i => by
    rw [State.behindEnds, if_neg fun both => other both.1, onlyPair, ite_self, List.append_nil]

theorem clearsPart_behind (t : State) (p : Port) : t.ClearedBehind ((t.updPort p PortState.cleared).resetBehind p) p := by
  cases role : roleOf p with
  | station i =>
    obtain rfl := roleOf_eq_station role
    have behind : (t.updPort (stationPort i) PortState.cleared).resetBehind (stationPort i) =
        ((t.updPort (stationPort i) PortState.cleared).dropHeldTake i).resetEntry i := by
      rw [State.resetBehind, role]
    have takes : t.keptTakes (stationPort i) = t.heldTakes.filter fun h => h.station != i := by
      rw [State.keptTakes, role]
    have events : t.behindEvents (stationPort i) = (t.station i).restartEvents i := by rw [State.behindEvents, role]
    have act := resetEntry_act ((t.updPort (stationPort i) PortState.cleared).dropHeldTake i) i
    have told := resetEntry_told ((t.updPort (stationPort i) PortState.cleared).dropHeldTake i) i
    have entry := resetEntry_station ((t.updPort (stationPort i) PortState.cleared).dropHeldTake i) i
    rw [behind]
    generalize ((t.updPort (stationPort i) PortState.cleared).dropHeldTake i).resetEntry i = u at *
    have whole : t.Told u := ⟨told.hears, told.latched, told.frozen⟩
    refine ⟨?_, fun j => ?_, ?_, whole.hearsBehind (stationPort_ne_storagePort i), whole.latched, whole.frozen⟩
    · rw [takes, if_neg (stationPort_ne_storagePort i)]
      exact act.same
    · split
      · next own =>
        obtain rfl := stationPort_injective own
        exact entry
      · next other => exact act.others j fun own => other (own ▸ rfl)
    · rw [events]
      exact act.stats.trans (statEvents_stats_congr
        (s := (t.updPort (stationPort i) PortState.cleared).dropHeldTake i) (t := t) rfl _)
  | storage =>
    obtain rfl := roleOf_eq_storage role
    have behind : (t.updPort storagePort PortState.cleared).resetBehind storagePort = _ :=
      resetStorage_eq (t.updPort storagePort PortState.cleared)
    rw [behind]
    refine ⟨rfl, fun i => (if_neg (stationPort_ne_storagePort i).symm).symm, rfl, ?_, fun _ => .of_same rfl, fun h => h⟩
    have ended : t.router.endedIf (t.storage.state == .stale) .storeStale 0 = t.router.hears (t.behindEnds storagePort) := by
      unfold Router.endedIf State.behindEnds
      simp only [true_and, beq_iff_eq]
      split <;> rfl
    refine (State.Hears.pair (ns := t.behindEnds storagePort) (k := .storeStale) (i := 0) (fun n mem => ?_) ended).of_eq
      fun k i => ?_
    · unfold State.behindEnds at mem
      split at mem
      · rw [List.mem_singleton.1 mem]
        rfl
      · cases mem
    · exact (congrArg (· ++ onlyPair .storeStale 0 (t.behindEnds storagePort) k i)
        (noticesOf_unchanged (t := t) (u := { t.updPort storagePort PortState.cleared with .. }) (fun _ => rfl) rfl k i)).symm
  | supervisor =>
    obtain rfl := roleOf_eq_supervisor role
    have same : (t.updPort supervisorPort PortState.cleared).resetBehind supervisorPort =
        t.updPort supervisorPort PortState.cleared := rfl
    have told : t.Told (t.updPort supervisorPort PortState.cleared) := .of_same rfl rfl fun _ => ⟨rfl, rfl, rfl⟩
    rw [same]
    exact ⟨rfl, fun i => (if_neg (stationPort_ne_supervisorPort i).symm).symm, rfl, told.hearsBehind (by decide),
      told.latched, told.frozen⟩

end Sys2Proof.Machine

/-! PROOFS. PORT-RESET: the parts of its frame in any order, with one pending set emptied on the way. -/

namespace Sys2Proof.Machine

/-! ### Routers that are alike but for one port's set -/

/-- Two routers with one routing table and the same pending sets but for that of one port. -/
structure Router.AlikeOff (x y : Router) (p : Port) : Prop where
  routes : x.routes = y.routes
  sets : ∀ q, q ≠ p → look x.sets q = look y.sets q

section
variable {x y : Router} {p : Port}

theorem Router.AlikeOff.hear (h : x.AlikeOff y p) (n : Notice) : (x.hear n).AlikeOff (y.hear n) p := by
  cases n with
  | fires k i l =>
    refine ⟨h.routes, fun q other => ?_⟩
    simp only [Router.hear, Router.fire, look_tabulate, h.routes, h.sets q other]
  | ends k i =>
    refine ⟨h.routes, fun q other => ?_⟩
    simp only [Router.hear, Router.conditionEnded, look_tabulate, h.sets q other]

theorem Router.AlikeOff.hears (h : x.AlikeOff y p) (ns : List Notice) : (x.hears ns).AlikeOff (y.hears ns) p := by
  induction ns generalizing x y with
  | nil => exact h
  | cons n ns ih => exact ih (h.hear n)

theorem Router.AlikeOff.agreesAt (h : x.AlikeOff y p) {q : Port} (other : q ≠ p) (k : CauseKind) (i : StationId) :
    x.AgreesAt y k i q := by
  rw [Router.AgreesAt, h.sets q other]

/-- Emptying the port's set. -/
theorem Router.AlikeOff.emptied (h : x.AlikeOff y p) :
    ({ x with sets := put x.sets p PendingSet.empty } : Router).AlikeOff y p :=
  ⟨h.routes, fun q other => by rw [look_put, if_neg other.symm, h.sets q other]⟩

end

/-! ### The parts of the frame -/

/-- The source events of a part of a PORT-RESET frame. -/
def State.resetEvents (g : State) (p : Port) (tag : Byte) : ResetPart → List SourceEvent
  | .filter n => g.filterEvents p portResetKind tag n
  | .clears => g.behindEvents p
  | .empties => []

/-- What the router has heard after some of the parts. -/
def State.resetPath (g t : State) (p : Port) (done : List ResetPart) (k : CauseKind) (i : StationId) : List Notice :=
  g.noticesOf t k i ++ onlyPair .storeStale 0 (if .clears ∈ done then g.behindEnds p else []) k i

/-- The port's own set after its emptying: empty, but for a firing of STATS-FREEZE by a filter's later event. -/
def State.OwnSet (g t : State) (p : Port) (tag : Byte) : Prop :=
  look t.router.sets p = PendingSet.empty ∨
    (g.stats.frozen = false ∧ t.stats.frozen = true ∧ (∃ n, (look g.stats.filters n).passes p portResetKind tag = true) ∧
      (look g.router.routes 10).mask.getLsbD p.val = true ∧
      look t.router.sets p =
        { entries := []
          fresh := [{ kind := .statsFreeze, inst := 0, release := (look g.router.routes 10).release, count := 1, locked := false }] })

/-- The state after some of the parts of a PORT-RESET frame. -/
structure State.ResetBy (g t : State) (p : Port) (tag : Byte) (done : List ResetPart) : Prop where
  same : t = { g with
    ports := if .clears ∈ done then (g.updPort p PortState.cleared).ports else g.ports
    stations := t.stations
    heldTakes := if .clears ∈ done then g.keptTakes p else g.heldTakes
    storage := if .clears ∈ done ∧ p = storagePort then g.storage.restarted else g.storage
    stats := t.stats, router := t.router, choices := t.choices }
  entries : ∀ i, t.station i = if .clears ∈ done ∧ p = stationPort i then (g.station i).restarted else g.station i
  stats : t.stats = (g.statEvents (done.flatMap (g.resetEvents p tag))).stats
  frozen : g.stats.frozen = true → t.stats.frozen = true
  heard : ∃ v : Router, t.router.AlikeOff v p ∧ g.Hears { t with router := v } (g.resetPath t p done)
  own : .empties ∈ done → g.OwnSet t p tag

section
variable {g t : State} {p : Port} {tag : Byte} {done : List ResetPart}

theorem resetBy_start (g : State) (p : Port) (tag : Byte) (n : Nat) : g.ResetBy { g with choices := n } p tag [] where
  same := rfl
  entries i := by simp; rfl
  stats := rfl
  frozen h := h
  heard := by
    refine ⟨g.router, ⟨rfl, fun _ _ => rfl⟩, (State.Hears.nothing rfl).of_eq fun k i => ?_⟩
    have nothing : g.noticesOf { g with choices := n } k i = [] := noticesOf_unchanged (fun _ => rfl) rfl k i
    rw [State.resetPath, nothing]
    simp [onlyPair]
  own := by simp

/-- A state in which some entries' flags changed once hears on the whole what its parts hear. -/
theorem noticesOf_add {u : State} (latched : ∀ i, (g.station i).Latched (t.station i))
    (latched' : ∀ i, (t.station i).Latched (u.station i)) (frozen : g.stats.frozen = true → t.stats.frozen = true)
    (frozen' : t.stats.frozen = true → u.stats.frozen = true)
    (once : ∀ i, t.station i = g.station i ∨ u.station i = t.station i) (k : CauseKind) (i : StationId) :
    g.noticesOf t k i ++ t.noticesOf u k i = g.noticesOf u k i :=
  noticesOf_join latched latched' frozen frozen' (fun _ => (once i).imp (fun h => by rw [h]) fun h => by rw [h]) fun _ =>
    (once i).imp (fun h => by rw [h]) fun h => by rw [h]

theorem restarted_statuses (e : Station) : e.restarted.statuses = e.statuses := by
  unfold Station.restarted
  split <;> rfl

theorem State.ResetBy.latched (h : g.ResetBy t p tag done) (i : StationId) : (g.station i).Latched (t.station i) := by
  rw [h.entries]
  split
  · exact .of_same (restarted_statuses _)
  · exact .of_same rfl

/-- The router of the parts done hears the next one. -/
theorem State.ResetBy.hear {u : State} (h : g.ResetBy t p tag done) {x : ResetPart}
    {path : CauseKind → StationId → List Notice} (hears : t.Hears u path)
    (whole : ∀ k i, g.resetPath t p done k i ++ path k i = g.resetPath u p (done ++ [x]) k i) :
    ∃ v : Router, u.router.AlikeOff v p ∧ g.Hears { u with router := v } (g.resetPath u p (done ++ [x])) := by
  obtain ⟨v, alike, ms, heard, own⟩ := h.heard
  obtain ⟨ns, next, own'⟩ := hears
  refine ⟨v.hears ns, next ▸ alike.hears ns, ms ++ ns, ?_, fun k i => ?_⟩
  · rw [hears_append, ← heard]
  · rw [List.filter_append, own, own', whole]

theorem resetBy_empties (h : g.ResetBy t p tag done) : g.ResetBy (t.resetPart p tag .empties) p tag (done ++ [.empties]) := by
  obtain ⟨v, alike, hears⟩ := h.heard
  have clears : .clears ∈ done ++ [ResetPart.empties] ↔ .clears ∈ done := by simp
  refine ⟨?_, fun i => ?_, ?_, h.frozen, ⟨v, alike.emptied, ?_⟩, fun _ => .inl (by simp [State.resetPart, State.emptySet])⟩
  · simp only [clears]
    exact congrArg (fun w : State => w.emptySet p) h.same
  · simp only [clears]
    exact h.entries i
  · rw [List.flatMap_append, List.flatMap_singleton, State.resetEvents, List.append_nil]
    exact h.stats
  · unfold State.resetPath at hears ⊢
    simp only [clears]
    exact hears

theorem behindEnds_apart (path : CauseKind → StationId → List Notice) (none : ∀ i, path .storeStale i = [])
    (ns : List Notice) (k : CauseKind) (i : StationId) :
    onlyPair .storeStale 0 ns k i ++ path k i = path k i ++ onlyPair .storeStale 0 ns k i := by
  by_cases own : k = .storeStale
  · rw [own, none, List.nil_append, List.append_nil]
  · rw [onlyPair, if_neg fun both => own both.1, List.nil_append, List.append_nil]

theorem filterOne_act (t : State) (p : Port) (kind tag : Byte) (n : Fin 2) (i : StationId) :
    t.Act (t.filterOne p kind tag n) i (t.filterEvents p kind tag n) := by
  unfold State.filterOne State.filterEvents
  split
  · exact statEvent_act ..
  · exact .refl t i

theorem filterOne_told (t : State) (p : Port) (kind tag : Byte) (n : Fin 2) : t.Told (t.filterOne p kind tag n) := by
  unfold State.filterOne
  split
  · exact statEvent_told ..
  · exact .of_same rfl rfl fun _ => ⟨rfl, rfl, rfl⟩

theorem filterOne_station (t : State) (p : Port) (kind tag : Byte) (n : Fin 2) (i : StationId) :
    (t.filterOne p kind tag n).station i = t.station i := by
  unfold State.filterOne
  split
  · simp
  · rfl

/-- A filter's event behind the emptying reaches an empty set, or finds the unit frozen already. -/
theorem State.OwnSet.filter (h : g.OwnSet t p tag) (filters : t.stats.filters = g.stats.filters)
    (routes : t.router.routes = g.router.routes) (frozen : g.stats.frozen = true → t.stats.frozen = true) (n : Fin 2) :
    g.OwnSet (t.filterOne p portResetKind tag n) p tag := by
  unfold State.filterOne
  split
  · next passes =>
    rcases h with empty | ⟨live, stopped, test, reaches, set⟩
    · have router := statEvent_router t (filterSource n) 0 p
      by_cases freezes : t.stats.frozen = false ∧ (t.statEvent (filterSource n) 0 p).stats.frozen = true
      · have once : t.freezings (t.statEvent (filterSource n) 0 p) = 1 := if_pos freezes
        have live : g.stats.frozen = false := by
          rw [← Bool.not_eq_true]
          exact fun was => Bool.false_ne_true (freezes.1.symm.trans (frozen was))
        have set : look (t.statEvent (filterSource n) 0 p).router.sets p =
            if (look g.router.routes 10).mask.getLsbD p.val then
              PendingSet.empty.deliver .statsFreeze 0 (look g.router.routes 10).release false
            else PendingSet.empty := by
          rw [router, once]
          have reaches : (look g.router.routes 10).reaches .statsFreeze 0 p = (look g.router.routes 10).mask.getLsbD p.val := by
            simp [Route.reaches, CauseKind.isStation]
          simp only [Router.fired, Function.iterate_one, Router.fire, look_tabulate, empty, routes]
          exact reaches ▸ rfl
        by_cases reached : (look g.router.routes 10).mask.getLsbD p.val = true
        · refine .inr ⟨live, freezes.2, ⟨n, filters ▸ passes⟩, reached, ?_⟩
          rw [set, if_pos reached]
          rfl
        · exact .inl (set.trans (if_neg reached))
      · have never : t.freezings (t.statEvent (filterSource n) 0 p) = 0 := if_neg freezes
        rw [never] at router
        left
        rw [router]
        exact empty
    · have still : t.statEvent (filterSource n) 0 p = t := if_pos stopped
      rw [still]
      exact .inr ⟨live, stopped, test, reaches, set⟩
  · exact h

theorem resetBy_filter (h : g.ResetBy t p tag done) (n : Fin 2) :
    g.ResetBy (t.resetPart p tag (.filter n)) p tag (done ++ [.filter n]) := by
  have filters : t.stats.filters = g.stats.filters := by rw [h.stats, statEvents_filters]
  have act := fun i => filterOne_act t p portResetKind tag n i
  have told := filterOne_told t p portResetKind tag n
  have entry := filterOne_station t p portResetKind tag n
  have clears : .clears ∈ done ++ [ResetPart.filter n] ↔ .clears ∈ done := by simp
  obtain ⟨v, alike, hears⟩ := h.heard
  have events : t.filterEvents p portResetKind tag n = g.filterEvents p portResetKind tag n := by
    unfold State.filterEvents
    rw [filters]
  have own := fun emptied => (h.own emptied).filter filters (alike.routes.trans hears.routes) h.frozen n
  rw [State.resetPart]
  generalize t.filterOne p portResetKind tag n = u at *
  refine ⟨?_, fun i => ?_, ?_, told.frozen ∘ h.frozen, ?_, fun emptied => own (by simpa using emptied)⟩
  · refine (act 0).same.trans ?_
    rw [(act 0).choices]
    simp only [clears]
    conv_lhs => rw [h.same]
  · rw [entry, h.entries]
    simp only [clears]
  · rw [List.flatMap_append, List.flatMap_singleton, State.resetEvents, statEvents_append, ← events, (act 0).stats]
    exact statEvents_stats_congr h.stats _
  · refine h.hear told.hears fun k i => ?_
    rw [State.resetPath, List.append_assoc, behindEnds_apart (t.noticesOf u) (fun _ => rfl), ← List.append_assoc,
      noticesOf_add (fun j => ?_) told.latched h.frozen told.frozen fun j => .inr (entry j)]
    · simp only [State.resetPath, clears]
    · exact h.latched j

theorem resetBy_clears (h : g.ResetBy t p tag done) (fresh : .clears ∉ done) (before : .empties ∉ done) :
    g.ResetBy (t.resetPart p tag .clears) p tag (done ++ [.clears]) := by
  have cleared := clearsPart_behind t p
  have now : .clears ∈ done ++ [ResetPart.clears] := by simp
  have entry : ∀ i, t.station i = g.station i := fun i => by rw [h.entries, if_neg fun both => fresh both.1]
  have same := h.same
  simp only [fresh, if_false, false_and] at same
  have takes : t.keptTakes p = g.keptTakes p := by
    rw [same]
    rfl
  have events : t.behindEvents p = g.behindEvents p := by
    unfold State.behindEvents
    split <;> simp only [entry]
  have ends : t.behindEnds p = g.behindEnds p := by
    rw [same]
    rfl
  rw [State.resetPart]
  generalize (t.updPort p PortState.cleared).resetBehind p = u at *
  refine ⟨?_, fun i => ?_, ?_, cleared.frozen ∘ h.frozen, ?_, fun emptied => absurd emptied (by simpa using before)⟩
  · have choices : u.choices = t.choices := by rw [cleared.same]
    refine cleared.same.trans ?_
    rw [takes, choices]
    simp only [now, if_true, true_and]
    conv_lhs => rw [same]
    rfl
  · rw [cleared.entries, entry]
    simp only [now, true_and]
  · rw [List.flatMap_append, List.flatMap_singleton, State.resetEvents, statEvents_append, ← events, cleared.stats]
    exact statEvents_stats_congr h.stats _
  · refine h.hear cleared.hears fun k i => ?_
    simp only [State.resetPath, fresh, now, if_false, if_true, ends]
    have nothing : onlyPair .storeStale 0 [] k i = [] := ite_self _
    rw [nothing, List.append_nil, ← List.append_assoc, noticesOf_add h.latched cleared.latched h.frozen cleared.frozen
      fun j => .inl (entry j)]

end

/-- What a list puts second is not done before its first. -/
theorem Interleaves.second_later {α : Type} {parts : List (List α)} {done rest : List α} {x y : α}
    (nodup : parts.flatten.Nodup) (h : Interleaves parts (done ++ x :: rest)) (listed : [x, y] ∈ parts) : y ∉ done := by
  intro early
  have all := h.perm.nodup_iff.2 nodup
  have fresh := (h.next_fresh nodup).1
  obtain ⟨before, after, same, inDone, inRest⟩ := List.sublist_append_iff.1 (h.sublist _ listed)
  cases before with
  | nil =>
    rw [List.nil_append] at same
    have later : y ∈ x :: rest := (same ▸ inRest).subset (by simp)
    exact (List.nodup_append.1 all).2.2 y early y later rfl
  | cons z before =>
    obtain ⟨rfl, -⟩ := List.cons.inj same
    exact fresh (inDone.subset (List.mem_cons_self ..))

/-- A PORT-RESET frame as a whole: all parts done in some order. -/
theorem portReset_result (g : State) (p : Port) (tag : Byte) :
    ∃ order, (∀ x, x ∈ order) ∧ g.ResetBy (g.portReset p tag) p tag order ∧
      g.CountsTogether (g.portReset p tag)
        [g.filterEvents p portResetKind tag 0, g.filterEvents p portResetKind tag 1, g.behindEvents p] ∧
      (g.stats.frozen = true ∨ (g.portReset p tag).stats.frozen = false → (g.portReset p tag).choices = g.choices) := by
  have nodup : ([[.filter 0], [.filter 1], [.clears, .empties]] : List (List ResetPart)).flatten.Nodup := by decide
  obtain ⟨order, whole, reset, counts, choices⟩ := together_steps (s := g) (act := fun t x => t.resetPart p tag x)
    (parts := [[.filter 0], [.filter 1], [.clears, .empties]]) (g.resetEvents p tag)
    (P := fun done t => g.ResetBy t p tag done) (resetBy_start g p tag)
    (fun {done x rest t} whole h => by
      cases x with
      | filter n => exact resetBy_filter h n
      | clears => exact resetBy_clears h (whole.next_fresh nodup).1 (whole.second_later nodup (by simp))
      | empties => exact resetBy_empties h)
    (fun h => h.stats) fun t x => by simp
  refine ⟨order, fun x => whole.perm.mem_iff.2 ?_, reset, ?_, choices⟩
  · cases x with
    | filter n => revert n; decide
    | clears => decide
    | empties => decide
  · simpa [State.resetEvents, State.portReset] using counts

end Sys2Proof.Machine

/-! PROOFS. PORT-RESET: what the other ports' pending sets keep, and the command. -/

namespace Sys2Proof.Machine

/-! ### Entries that harmless notices keep -/

/-- Whether a notice leaves the entries that `keep` names: a firing of a kind of none of them, or an end report whose
CLEAR entries are none of them. -/
def Notice.Spares (keep : PendingEntry → Bool) : Notice → Prop
  | .fires k _ _ => ∀ e : PendingEntry, keep e = true → e.kind ≠ k
  | .ends k i => ∀ e : PendingEntry, keep e = true → e.isFor k i = true → e.release ≠ .clear

section
variable {keep : PendingEntry → Bool}

theorem filter_of_agreesOff {x y : Router} {may : CauseKind → StationId → Bool} (h : x.AgreesOff y may)
    (within : ∀ e : PendingEntry, keep e = true → may e.kind e.inst = false) (q : Port) :
    (look y.sets q).all.filter keep = (look x.sets q).all.filter keep := by
  have narrow (es : List PendingEntry) : es.filter keep = (es.filter fun e => !may e.kind e.inst).filter keep := by
    rw [List.filter_filter]
    refine List.filter_congr fun e _ => ?_
    cases kept : keep e with
    | true => simp [within e kept]
    | false => rfl
  rw [narrow, narrow (look x.sets q).all, h.others q]

theorem hear_spares {n : Notice} (h : n.Spares keep) (x : Router) (q : Port) :
    (look (x.hear n).sets q).all.filter keep = (look x.sets q).all.filter keep := by
  cases n with
  | fires k i l =>
    exact filter_of_agreesOff (may := fun k' _ => k' == k) (fire_agreesOff x (by simp) l)
      (fun e kept => beq_eq_false_iff_ne.2 (h e kept)) q
  | ends k i =>
    have kept (es : List PendingEntry) : (es.filter fun e => !(e.isFor k i && e.release == .clear)).filter keep =
        es.filter keep := by
      rw [List.filter_filter]
      refine List.filter_congr fun e _ => ?_
      cases own : keep e with
      | false => rfl
      | true =>
        cases pair : e.isFor k i with
        | false => rfl
        | true => simp [h e own pair]
    simp only [Router.hear, Router.conditionEnded, look_tabulate, PendingSet.all, List.filter_append, kept]

theorem hears_spares {ns : List Notice} (h : ∀ n ∈ ns, n.Spares keep) (x : Router) (q : Port) :
    (look (x.hears ns).sets q).all.filter keep = (look x.sets q).all.filter keep := by
  induction ns generalizing x with
  | nil => rfl
  | cons n ns ih =>
    exact (ih (fun m mem => h m (List.mem_cons_of_mem _ mem)) _).trans (hear_spares (h n (List.mem_cons_self ..)) x q)

end

/-! ### The notices of a PORT-RESET -/

theorem restarted_falls (e : Station) : (e.restarted.ready = true → e.ready = true) ∧
    (e.restarted.state = .stale → e.state = .stale) := by
  unfold Station.restarted
  split
  · exact ⟨fun h => h, fun h => h⟩
  · refine ⟨fun up => ?_, fun stale => absurd stale (joinState_fresh e).2.1⟩
    dsimp only at up
    split at up
    · exact up
    · cases up

/-- A flag that does not rise gives no firing. -/
theorem flipped_falls {k : CauseKind} {i : StationId} {before after : Bool} (h : after = true → before = true) {n : Notice}
    (mem : n ∈ flipped k i before after) : n = .ends k i := by
  unfold flipped at mem
  split at mem
  · next rises =>
    simp only [Bool.and_eq_true, Bool.not_eq_true'] at rises
    exact absurd (h rises.1) (by rw [rises.2]; decide)
  · split at mem
    · exact List.mem_singleton.1 mem
    · cases mem

/-- The notices that a reset gives: end reports of the flags it clears, and STATS-FREEZE. -/
theorem resetPath_harmless {g t : State} {p : Port} {tag : Byte} {done : List ResetPart} (h : g.ResetBy t p tag done)
    {k : CauseKind} {i : StationId} {n : Notice} (mem : n ∈ g.resetPath t p done k i) :
    n = .fires .statsFreeze 0 false ∨
      (n = .ends k i ∧ (k = .raiseReady ∨ k = .stnStale ∨ k = .storeStale)) := by
  have falls : ((t.station i).ready = true → (g.station i).ready = true) ∧
      ((t.station i).state = .stale → (g.station i).state = .stale) := by
    rw [h.entries]
    split
    · exact restarted_falls _
    · exact ⟨fun h => h, fun h => h⟩
  have statuses : (t.station i).statuses = (g.station i).statuses := by
    rw [h.entries]
    split
    · exact restarted_statuses _
    · rfl
  rcases List.mem_append.1 mem with own | record
  · cases k
    case raiseReady => exact .inr ⟨flipped_falls falls.1 own, .inl rfl⟩
    case stnStale => exact .inr ⟨flipped_falls (by simpa using falls.2) own, .inr (.inl rfl)⟩
    case stnMonitor =>
      rw [State.noticesOf, newStatuses_of_same statuses] at own
      cases own
    case statsFreeze =>
      rw [State.noticesOf] at own
      split at own
      · next zero => exact .inl (zero ▸ List.eq_of_mem_replicate own)
      · cases own
    all_goals cases own
  · unfold onlyPair State.behindEnds at record
    split at record
    · next pair =>
      obtain ⟨rfl, rfl⟩ := pair
      refine .inr ⟨?_, .inr (.inr rfl)⟩
      split at record
      · split at record
        · exact List.mem_singleton.1 record
        · cases record
      · cases record
    · cases record

/-- The entries that a reset keeps in the sets of the other ports, whatever their pair. -/
def resetKeeps (e : PendingEntry) : Bool :=
  e.kind != .statsFreeze && (e.release == .ack || (e.kind != .raiseReady && e.kind != .stnStale && e.kind != .storeStale))

theorem resetPath_spares {g t : State} {p : Port} {tag : Byte} {done : List ResetPart} (h : g.ResetBy t p tag done)
    {k : CauseKind} {i : StationId} {n : Notice} (mem : n ∈ g.resetPath t p done k i) : n.Spares resetKeeps := by
  have kept {e : PendingEntry} (keeps : resetKeeps e = true) : e.kind ≠ .statsFreeze ∧
      (e.release = .ack ∨ (e.kind ≠ .raiseReady ∧ e.kind ≠ .stnStale ∧ e.kind ≠ .storeStale)) := by
    simpa [resetKeeps, and_assoc] using keeps
  rcases resetPath_harmless h mem with rfl | ⟨rfl, kinds⟩
  · exact fun e keeps => (kept keeps).1
  · intro e keeps own
    obtain ⟨rfl, rfl⟩ := (isFor_iff e k i).1 own
    rcases (kept keeps).2 with ack | ⟨ready, stale, store⟩
    · rw [ack]
      decide
    · rcases kinds with kind | kind | kind
      · exact absurd kind ready
      · exact absurd kind stale
      · exact absurd kind store

theorem mem_filter_own {ns : List Notice} {n : Notice} (mem : n ∈ ns) : ∃ k i, n ∈ ns.filter (·.isFor k i) := by
  cases n with
  | fires k i l => exact ⟨k, i, List.mem_filter.2 ⟨mem, by simp [Notice.isFor]⟩⟩
  | ends k i => exact ⟨k, i, List.mem_filter.2 ⟨mem, by simp [Notice.isFor]⟩⟩

/-- The pairs whose entries a reset can touch in the sets of the other ports. -/
def resetPairs (p : Port) (k : CauseKind) (i : StationId) : Bool :=
  k == .statsFreeze || (k == .storeStale && p == storagePort) ||
    ((k == .raiseReady || k == .stnStale) && p == stationPort i)

theorem resetPath_off {g t : State} {p : Port} {tag : Byte} {done : List ResetPart} (h : g.ResetBy t p tag done)
    {k : CauseKind} {i : StationId} (off : resetPairs p k i = false) : g.resetPath t p done k i = [] := by
  simp only [resetPairs, Bool.or_eq_false_iff, Bool.and_eq_false_iff, beq_eq_false_iff_ne] at off
  obtain ⟨⟨unfrozen, store⟩, station⟩ := off
  have record : onlyPair .storeStale 0 (if .clears ∈ done then g.behindEnds p else []) k i = [] := by
    unfold onlyPair State.behindEnds
    by_cases own : k = .storeStale
    · have other := store.resolve_left (not_not.2 own)
      simp [other]
    · exact if_neg fun both => own both.1
  rw [State.resetPath, record, List.append_nil]
  have entry (other : p ≠ stationPort i) : t.station i = g.station i := by rw [h.entries, if_neg fun both => other both.2]
  have statuses : (t.station i).statuses = (g.station i).statuses := by
    rw [h.entries]
    split
    · exact restarted_statuses _
    · rfl
  cases k
  case raiseReady => rw [State.noticesOf, entry (station.resolve_left fun both => both.1 rfl), flipped_same]
  case stnStale => rw [State.noticesOf, entry (station.resolve_left fun both => both.2 rfl), flipped_same]
  case stnMonitor =>
    rw [State.noticesOf, newStatuses_of_same statuses]
    rfl
  case statsFreeze => exact absurd rfl unfrozen
  all_goals rfl

/-! ### The other ports' sets -/

section
variable {g t : State} {p q : Port} {tag : Byte} {done : List ResetPart}

theorem State.ResetBy.keeps (h : g.ResetBy t p tag done) (other : q ≠ p) :
    (look t.router.sets q).all.filter resetKeeps = (look g.router.sets q).all.filter resetKeeps := by
  obtain ⟨v, alike, ns, heard, own⟩ := h.heard
  have heard : v = g.router.hears ns := heard
  rw [alike.sets q other, heard]
  refine hears_spares (fun n mem => ?_) _ q
  obtain ⟨k, i, here⟩ := mem_filter_own mem
  rw [own] at here
  exact resetPath_spares h here

theorem State.ResetBy.off (h : g.ResetBy t p tag done) (other : q ≠ p) :
    (look t.router.sets q).all.filter (fun e => !resetPairs p e.kind e.inst) =
      (look g.router.sets q).all.filter fun e => !resetPairs p e.kind e.inst := by
  obtain ⟨v, alike, hears⟩ := h.heard
  rw [alike.sets q other]
  exact (hears.agreesOff fun k i off => resetPath_off h off).others q

theorem State.ResetBy.agrees (h : g.ResetBy t p tag done) (other : q ≠ p) (k : CauseKind) (i : StationId) :
    t.router.AgreesAt (g.router.hears (g.resetPath t p done k i)) k i q := by
  obtain ⟨v, alike, hears⟩ := h.heard
  exact (alike.agreesAt other k i).trans (hears.agrees k i q)

theorem State.ResetBy.notices (h : g.ResetBy t p tag done) (other : q ≠ p) (i : StationId) :
    g.Notices t i q ∧ g.ReadyNotice t i q := by
  obtain ⟨v, alike, hears⟩ := h.heard
  have same : ∀ k j, t.router.AgreesAt v k j q := alike.agreesAt other
  exact ⟨(hears.notices (List.append_nil _) (List.append_nil _) (List.append_nil _) q).congr same ⟨rfl, rfl⟩ rfl,
    (hears.readyNotice (List.append_nil _) q).congr (same _ _) rfl⟩

end

/-! ### The command -/

theorem judgeHalf_of_reset {s : State} {p : Port} {half : BitVec 112}
    (crc : crc16 (half.extractLsb' 16 96) = half.extractLsb' 0 16) (kind : half.extractLsb' 104 8 = 11) :
    s.judgeHalf p half = s.portReset p (halfTag half) := by
  have reset : halfKind half = portResetKind := kind
  rw [judgeHalf_of_good crc, if_neg (by rw [reset]; decide), if_pos reset]

theorem restartEvents_eq (e : Station) (i : StationId) :
    e.restartEvents i = match e.state, e.interlock with
      | .absent, _ | _, none => []
      | _, some r => [⟨.interlockEnd, r.granted - e.applied, stationPort i⟩] := by
  unfold Station.restartEvents Station.endEvents
  cases e.state <;> cases e.interlock <;> rfl

/-- Behind the storage and the supervisor port stand neither held ceiling takes nor interlocks. -/
theorem behind_of_high (s : State) {p : Port} (high : 10 ≤ p.val) : s.keptTakes p = s.heldTakes ∧ s.behindEvents p = [] := by
  unfold State.keptTakes State.behindEvents
  cases role : roleOf p with
  | station i =>
    obtain rfl := roleOf_eq_station role
    have small : (stationPort i).val = i.val := rfl
    omega
  | storage => exact ⟨rfl, rfl⟩
  | supervisor => exact ⟨rfl, rfl⟩

/-- Settles O7: the parts of the frame in any order (`portReset_result`); what stands behind the port is reset by
`resetEntry_station` and `resetStorage_eq`, and the other ports' sets hear end reports and STATS-FREEZE alone
(`resetPath_harmless`). -/
theorem portResetClearsItsPort : Obligations.PortResetClearsItsPort := by
  intro s p h half quiet link stuck crc kind hits tests
  obtain ⟨order, all, reset, counts, choices⟩ := portReset_result (s.delivering p h) p (halfTag half)
  have calm := delivering_quiet quiet h stuck
  have arrived := exec_frameComplete_of_calm quiet link stuck half
  rw [judgeHalf_of_reset crc kind] at arrived
  have own := reset.own (all .empties)
  have same := reset.same
  simp only [all, if_true, true_and] at same
  have ports : ((s.delivering p h).portReset p (halfTag half)).ports = ((s.delivering p h).updPort p PortState.cleared).ports := by
    rw [same]
  have still : ∀ q, ((s.delivering p h).portReset p (halfTag half)).endEvent.canTake q = false := fun q => by
    have before := calm.taken q
    rw [canTake_congr (s := (s.delivering p h).updPort p PortState.cleared) (by simpa using ports)]
    by_cases here : p = q
    · subst here
      simp [State.canTake, PortState.cleared]
    · simpa [State.canTake, here] using before
  rw [runHandlers_of_quiet still] at arrived
  have entries := reset.entries
  simp only [all, true_and] at entries
  have takes : ((s.delivering p h).portReset p (halfTag half)).heldTakes = (s.delivering p h).keptTakes p := by rw [same]
  have record : ((s.delivering p h).portReset p (halfTag half)).storage =
      if p = storagePort then s.storage.restarted else s.storage := by
    rw [same]
    rfl
  generalize (s.delivering p h).portReset p (halfTag half) = u at *
  have settle : ∀ q, look u.endEvent.router.sets q = (look u.router.sets q).settle := fun q => look_tabulate ..
  refine ⟨_, arrived, ?_, choices, endEvent_settled u p, fun calm => ?_, ?_, ?_, fun q other =>
      ⟨?_, ?_, fun i _ => ⟨?_, ?_⟩, ?_, fun storage => ?_⟩,
    fun i other => ?_, fun i here => ⟨?_, ?_, ?_⟩, fun high => ⟨?_, ?_⟩, fun here => ?_, fun other => ?_⟩
  · have cleared : ((s.delivering p h).updPort p PortState.cleared).ports = (s.updPort p (fun x =>
        { x with requests := [], replies := [], handler := .idle, drop := false, ferr := false, link := .idle })).ports := by
      rw [State.delivering, updPort_updPort]
      rfl
    rw [cleared, ← takes, show (if p = storagePort then (s.delivering p h).storage.restarted else
      (s.delivering p h).storage) = u.storage from record.symm] at same
    conv_lhs => rw [same]
    rfl
  · rcases own with empty | ⟨live, stopped, ⟨n, passes⟩, -, -⟩
    · rw [State.attentionLine, settle, empty]
      rfl
    · rcases calm with ⟨none0, none1⟩ | was | kept
      · have both : ∀ m : Fin 2, hits m = false := by
          intro m
          match m with
          | 0 => exact none0
          | 1 => exact none1
        exact absurd passes (Bool.eq_false_iff.1 (both n))
      · exact absurd was (Bool.eq_false_iff.1 live)
      · exact absurd stopped (Bool.eq_false_iff.1 kept)
  · rcases own with empty | ⟨-, -, -, reaches, set⟩
    · left
      rw [State.attentionLine, settle, empty]
      rfl
    · exact .inr ⟨reaches, by rw [settle, set]; rfl⟩
  · obtain ⟨v, alike, hears⟩ := reset.heard
    exact alike.routes.trans hears.routes
  · rw [settle]
    exact (reset.keeps other).trans (by rw [all_of_settled (calm.settled q)]; rfl)
  · have kept := (reset.off other).trans (by rw [all_of_settled (calm.settled q)]; rfl :
      _ = (look s.router.sets q).entries.filter fun e => !resetPairs p e.kind e.inst)
    have same : ∀ es : List PendingEntry, es.filter (fun e => !resetPairs p e.kind e.inst) = es.filter fun e =>
        e.kind != .statsFreeze && !(e.kind == .storeStale && p == storagePort) &&
          !((e.kind == .raiseReady || e.kind == .stnStale) && p == stationPort e.inst) := fun es =>
      List.filter_congr fun e _ => by simp only [resetPairs, Bool.not_or, bne]
    rw [settle, ← same, ← same]
    exact kept
  · have told := (reset.notices other i).1.congr (t' := u.endEvent) (fun k j => settle_agrees _ k j q) ⟨rfl, rfl⟩ rfl
    exact ⟨told.monitor, told.stale, told.freeze⟩
  · exact (reset.notices other i).2.congr (t' := u.endEvent) (settle_agrees _ _ i q) rfl
  · exact (settle_agrees _ _ 0 q).trans (reset.notices other 0).1.freeze
  · have heard := reset.agrees other .storeStale 0
    have path : (s.delivering p h).resetPath u p order .storeStale 0 =
        if s.storage.state = .stale then [.ends .storeStale 0] else [] := by
      simp only [State.resetPath, all, if_true, State.noticesOf, List.nil_append, onlyPair, and_self, State.behindEnds,
        storage, true_and]
      rfl
    have ended : (s.delivering p h).router.hears ((s.delivering p h).resetPath u p order .storeStale 0) =
        s.router.endedIf (s.storage.state == .stale) .storeStale 0 := by
      rw [path, Router.endedIf]
      simp only [beq_iff_eq]
      split <;> rfl
    exact (settle_agrees _ _ 0 q).trans (ended ▸ heard)
  · exact (entries i).trans (if_neg other)
  · refine takes.trans ?_
    rw [State.keptTakes, here, roleOf_stationPort]
    rfl
  · have third : (s.delivering p h).behindEvents p = match (s.station i).state, (s.station i).interlock with
        | .absent, _ | _, none => []
        | _, some r => [⟨.interlockEnd, r.granted - (s.station i).applied, p⟩] := by
      rw [State.behindEvents, here, roleOf_stationPort]
      exact restartEvents_eq (s.station i) i
    rw [third] at counts
    exact counts.congr rfl rfl
  · refine (entries i).trans ?_
    rw [if_pos here]
    rfl
  · exact takes.trans (behind_of_high (s.delivering p h) high).1
  · rw [(behind_of_high (s.delivering p h) high).2] at counts
    refine (counts.congr (s' := s) (t' := u.endEvent) rfl rfl).regroup (fun l mem => ?_) (List.Perm.of_eq ?_)
    · simp only [tests, List.mem_cons, List.not_mem_nil, or_false] at mem
      rcases mem with rfl | rfl <;> split <;> simp
    · rw [List.flatten_cons, List.flatten_cons, List.flatten_cons, List.nil_append]
      rfl
  · refine record.trans ?_
    rw [if_pos here]
    rfl
  · exact record.trans (if_neg other)

end Sys2Proof.Machine

/-! PROOFS. What a publication writes of the Ramp Monitor. -/

namespace Sys2Proof.Machine

/-- The scopes after the clean-run counts of a run (R127). -/
def State.countedScopes (s : State) (x : RunResult) : Vector Scope 5 :=
  if x.ramp.checked then tabulate fun n => (look s.ramp.scopes n).count x.clean x.run.params.freezeAuto
  else s.ramp.scopes

/-- The scopes after a run's counts and its freeze (R125, R127). -/
def State.runScopes (s : State) (x : RunResult) : Vector Scope 5 :=
  match x.freezes with
  | some n => put (s.countedScopes x) n { frozen := true, cleanRuns := 0 }
  | none => s.countedScopes x

theorem rampViolations_ramp (s : State) (x : RunResult) : (s.rampViolations x).ramp =
    { s.ramp.setStatuses x with capture := s.ramp.capture.publish x } := by
  simp only [State.rampViolations]
  cases x.soft <;> cases x.hard <;> rfl

/-- The clean-run counts and automatic releases of a run (R127). -/
def State.countScopes (s : State) (x : RunResult) : State :=
  if x.ramp.checked then
    s.releaseScopes (tabulate fun n => (look s.ramp.scopes n).count x.clean x.run.params.freezeAuto)
  else s

theorem rampScopes_eq (s : State) (x : RunResult) : s.rampScopes x =
    match x.freezes with
    | some n => (s.countScopes x).freezeScope n
    | none => s.countScopes x := rfl

theorem countScopes_ramp (s : State) (x : RunResult) : (s.countScopes x).ramp =
    { s.ramp with scopes := s.countedScopes x } := by
  unfold State.countScopes State.countedScopes
  cases x.ramp.checked with
  | true => exact releaseScopes_ramp _ _
  | false => rfl

theorem rampScopes_ramp (s : State) (x : RunResult) : (s.rampScopes x).ramp =
    { s.ramp with scopes := s.runScopes x } := by
  rw [rampScopes_eq, State.runScopes]
  cases x.freezes with
  | none => exact countScopes_ramp s x
  | some n => exact (freezeScope_ramp _ n).trans (by rw [countScopes_ramp])

/-- The statuses, the capture and the scopes after a publication (R122, R125, R127, R131). -/
theorem rampPublication_ramp (s : State) (x : RunResult) : (s.rampPublication x).ramp =
    { s.ramp.setStatuses x with scopes := s.runScopes x, capture := s.ramp.capture.publish x } := by
  have causes : (s.rampPublication x).ramp = ((s.rampViolations x).rampScopes x).ramp := by
    simp [State.rampPublication]
  have scopes : (s.rampViolations x).runScopes x = s.runScopes x := by
    simp only [State.runScopes, State.countedScopes, rampViolations_ramp]
    rfl
  rw [causes, rampScopes_ramp, scopes, rampViolations_ramp]

theorem publish_ramp (s : State) (x : RunResult) : (s.publish x).ramp =
    { s.ramp.setStatuses x with scopes := s.runScopes x, capture := s.ramp.capture.publish x } := by
  have share : (s.publish x).ramp = ((s.nextEvent.commitRun x).rampPublication x).ramp := by simp [State.publish]
  rw [share, rampPublication_ramp]
  rfl

end Sys2Proof.Machine

/-! PROOFS. What stands until a request of its own: the laws that all requests but those of a kind keep. -/

namespace Sys2Proof.Machine

/-! ### The requests that wait -/

/-- Every request that waits in `t` waits in `s`, on the same port. -/
def State.WaitsFrom (s t : State) : Prop := ∀ q, (t.port q).requests ⊆ (s.port q).requests

section
variable {s t u : State} {p : Port}

theorem State.WaitsFrom.of_ports (h : t.ports = s.ports) : s.WaitsFrom t := fun q => by
  rw [port_congr h q]
  exact List.Subset.refl _

theorem State.WaitsFrom.trans (h : s.WaitsFrom t) (g : t.WaitsFrom u) : s.WaitsFrom u := fun q => List.Subset.trans (g q) (h q)

theorem updPort_waitsFrom {f : PortState → PortState} (h : (f (s.port p)).requests ⊆ (s.port p).requests) :
    s.WaitsFrom (s.updPort p f) := fun q => by
  rw [port_updPort]
  split
  · next own => exact own ▸ h
  · exact List.Subset.refl _

theorem writeDepth_waitsFrom (s : State) (p : Port) (v : Nat) : s.WaitsFrom (s.writeDepth p v) := fun q => by
  simp only [State.writeDepth, dropEvents_reads, port_updPort]
  split
  · next own => exact own ▸ List.take_subset _ _
  · exact List.Subset.refl _

theorem storeParam_waitsFrom (s : State) (id index : Nat) (v : BitVec 32) : s.WaitsFrom (storeParam s id index v) := by
  unfold storeParam
  simp only
  split
  case h_29 =>
    split
    · exact writeDepth_waitsFrom _ _ _
    · exact .of_ports rfl
  all_goals
    refine .of_ports ?_
    (repeat' split) <;> simp

theorem answerHeldTakes_waitsFrom (s : State) : s.WaitsFrom s.answerHeldTakes := by
  have all : ∀ (held : List HeldTake) (t : State), t.WaitsFrom (held.foldl State.answerHeldTake t) := by
    intro held
    induction held with
    | nil => exact fun t => .of_ports rfl
    | cons k held ih =>
      refine fun t => State.WaitsFrom.trans (fun q => ?_) (ih _)
      rw [answerHeldTake_port, onPort]
      split
      · next own => exact own ▸ List.Subset.refl _
      · exact List.Subset.refl _
  exact (State.WaitsFrom.of_ports (t := s.setHeldTakes []) rfl).trans (all _ _)

theorem answerHeldDispatch_waitsFrom (s : State) : s.WaitsFrom s.answerHeldDispatch := by
  unfold State.answerHeldDispatch
  split
  · exact .of_ports rfl
  · exact (State.WaitsFrom.of_ports rfl).trans (updPort_waitsFrom (List.Subset.refl _))

theorem answerAll_waitsFrom (s : State) : s.WaitsFrom s.answerHeldTakes.evalReadyAll.answerHeldDispatch :=
  ((answerHeldTakes_waitsFrom s).trans (.of_ports (by simp))).trans (answerHeldDispatch_waitsFrom _)

theorem haltEngine_waitsFrom (s : State) : s.WaitsFrom s.haltEngine :=
  (State.WaitsFrom.of_ports (haltClosed_kept s).2.2.1).trans (answerAll_waitsFrom s.haltClosed)

theorem publish_waitsFrom (s : State) (x : RunResult) : s.WaitsFrom (s.publish x) := by
  have before : ((((s.nextEvent.commitRun x).rampPublication x).statPublication x.events x.record.plant
      x.record.collapsed).takeDeadlines).ports = s.ports := by simp
  exact (State.WaitsFrom.of_ports before).trans (answerAll_waitsFrom _)

theorem serveBody_waitsFrom (s : State) (p : Port) (r : Request) : s.WaitsFrom (serveBody s p r).1 := by
  obtain ⟨tag, body⟩ := r
  cases body
  case engHalt =>
    refine supervisorOnly_keeps (P := fun t => s.WaitsFrom t) (.of_ports rfl) ?_ p
    unfold serveEngHalt
    dsimp only
    split
    · exact .of_ports rfl
    · exact haltEngine_waitsFrom s
  case paramSet id index value =>
    refine supervisorOnly_keeps (P := fun t => s.WaitsFrom t) (.of_ports rfl) ?_ p
    rcases serveParamSet_cases s id index value with same | ⟨-, -, store⟩
    · rw [same]
      exact .of_ports rfl
    · rw [store]
      exact storeParam_waitsFrom _ _ _ _
  all_goals
    refine .of_ports ?_
    simp only [serveBody, supervisorOnly]
    (repeat' split) <;> simp [answered, roleRefused]

end

/-! ### Laws that only requests of a kind end -/

/-- No request of a kind waits. -/
def State.Unwanted (want : Body → Bool) (s : State) : Prop := ∀ q, ∀ r ∈ (s.port q).requests, want r.body = false

section
variable {want : Body → Bool} {s t : State} {L : State → Prop}

theorem State.Unwanted.from (h : s.Unwanted want) (g : s.WaitsFrom t) : t.Unwanted want := fun q r mem => h q r (g q mem)

theorem State.Unwanted.updPort (h : s.Unwanted want) {p : Port} {f : PortState → PortState}
    (bounded : (f (s.port p)).requests ⊆ (s.port p).requests) : (s.updPort p f).Unwanted want :=
  h.from (updPort_waitsFrom bounded)

/-- A law of the blocks that the services of all other requests keep stands while no request of the kind waits. -/
theorem Kept.of_unwanted (congr : ∀ {s t : State}, L s → s.SameBlocks t → L t)
    (counted : ∀ {s} x m p, L s → L (s.statEvent x m p)) (ends : ∀ {s} p b, L s → L (s.takingEnds p b))
    (served : ∀ {s} p r, want r.body = false → L s → L (serveBody s p r).1) (behind : ∀ {s} p, L s → L (s.resetBehind p)) :
    Kept (fun s => L s ∧ s.Unwanted want) (fun s => L s ∧ s.Unwanted want) fun r => want r.body = false where
  within h := h
  ended h := ⟨congr h.1 ⟨by simp, by simp, by simp, by simp, by simp, by simp, by simp, by simp⟩,
    h.2.from (.of_ports (by simp))⟩
  unmarked h := ⟨congr h.1 ⟨rfl, rfl, rfl, rfl, rfl, rfl, rfl, rfl⟩, h.2⟩
  chosen _ h := ⟨congr h.1 ⟨rfl, rfl, rfl, rfl, rfl, rfl, rfl, rfl⟩, h.2⟩
  chosenWithin _ h := ⟨congr h.1 ⟨rfl, rfl, rfl, rfl, rfl, rfl, rfl, rfl⟩, h.2⟩
  linked p l h := ⟨congr h.1 (updPort_sameBlocks ..), h.2.updPort (List.Subset.refl _)⟩
  delivered p a h := ⟨congr h.1 (updPort_sameBlocks ..), h.2.updPort (List.Subset.refl _)⟩
  flagged p h := ⟨congr h.1 (updPort_sameBlocks ..), h.2.updPort (List.Subset.refl _)⟩
  dropped p h := ⟨congr h.1 (updPort_sameBlocks ..), h.2.updPort (List.Subset.refl _)⟩
  counted x m p h := ⟨counted x m p h.1, h.2.from (.of_ports (by simp))⟩
  queued {s p r} h ok _ := by
    refine ⟨congr h.1 (updPort_sameBlocks ..), fun q x mem => ?_⟩
    rw [port_updPort] at mem
    split at mem
    · rcases List.mem_append.1 mem with old | new
      · exact h.2 p x old
      · rw [List.mem_singleton.1 new]
        exact ok
    · exact h.2 q x mem
  waiting h mem := h.2 _ _ mem
  taken {s p n r} h _ _ ok := by
    have left := h.2.updPort (p := p) (f := fun x => { x with requests := x.requests.eraseIdx n }) (List.eraseIdx_subset ..)
    have ended := ends p r.body (congr h.1 (updPort_sameBlocks s p fun x => { x with requests := x.requests.eraseIdx n }))
    rw [serve_eq]
    refine ⟨congr (served p r ok ended) (updPort_sameBlocks ..), State.Unwanted.updPort
      ((left.from (.of_ports (takingEnds_ports ..))).from (serveBody_waitsFrom _ _ _)) ?_⟩
    unfold PortState.concluded
    split <;> exact List.Subset.refl _
  cleared p h := ⟨behind p (congr h.1 (updPort_sameBlocks ..)),
    (h.2.updPort (p := p) (f := PortState.cleared) (List.nil_subset _)).from (.of_ports (by simp))⟩
  emptied p h := ⟨congr h.1 ⟨rfl, rfl, rfl, rfl, rfl, rfl, rfl, rfl⟩, h.2⟩

theorem unwanted_of_mayServe {c : Instr} (h : s.mayServe c want = false) :
    s.Unwanted want ∧ ∀ p r, incoming c = some (p, r) → want r.body = false := by
  simp only [State.mayServe, Bool.or_eq_false_iff, List.any_eq_false] at h
  refine ⟨fun q r mem => ?_, fun p r brings => ?_⟩
  · have none := h.1 q (mem_allPorts q)
    simpa using List.any_eq_false.1 (Bool.eq_false_iff.2 none) r mem
  · have last := h.2
    rw [brings] at last
    exact last

end

/-! ### A frozen unit -/

theorem startRun_stands (s : State) : s.stats.Stands s.startRun.stats := fun frozen => by
  obtain ⟨n, started⟩ := startRun_eq s
  obtain ⟨-, -, ⟨order, -, counted⟩, -⟩ := ageStations_result s
  have stats : s.startRun.stats = s.ageStations.stats := by
    rw [started]
    simp [State.aged]
  rw [stats, counted, statEvents_of_frozen frozen]
  exact ⟨frozen, rfl, fun _ => rfl⟩

theorem serveBody_stands (s : State) (p : Port) (r : Request) (unwritten : r.body.writesCounters = false) :
    s.stats.Stands (serveBody s p r).1.stats := by
  by_cases halts : r.body = .engHalt
  · obtain ⟨tag, body⟩ := r
    obtain rfl : body = .engHalt := halts
    refine supervisorOnly_keeps (P := fun t => s.stats.Stands t.stats) (.refl _) ?_ p
    unfold serveEngHalt
    dsimp only
    split
    · exact .refl _
    · exact (haltEngine_follows s).stands
  · exact (serveBody_follows s p halts unwritten).stands

/-- What a frozen unit counted stays while no request that writes counters waits. -/
theorem standsKept (x : Stats) : Kept (fun s => x.Stands s.stats ∧ s.Unwanted Body.writesCounters)
    (fun s => x.Stands s.stats ∧ s.Unwanted Body.writesCounters) fun r => r.body.writesCounters = false :=
  .of_unwanted (L := fun s => x.Stands s.stats) (fun h same => same.stats ▸ h)
    (fun y m p h => h.trans (statEvent_follows _ y m p).stands) (fun p b h => h.trans (takingEnds_follows _ p b).stands)
    (fun p r unwritten h => h.trans (serveBody_stands _ p r unwritten)) fun p h => h.trans (resetBehind_follows _ p).stands

/-! ### The published record -/

theorem serveBody_published (s : State) (p : Port) (r : Request) (other : (r.body == .engStart || r.body == .engHalt) = false) :
    (serveBody s p r).1.published = s.published := by
  obtain ⟨tag, body⟩ := r
  cases body
  case engStart => cases other
  case engHalt => cases other
  all_goals
    simp only [serveBody, supervisorOnly]
    (repeat' split) <;> simp [answered, roleRefused]

theorem publishedKept (x : Published) : Kept
    (fun s => s.published = x ∧ s.Unwanted fun b => b == .engStart || b == .engHalt)
    (fun s => s.published = x ∧ s.Unwanted fun b => b == .engStart || b == .engHalt)
    fun r => (r.body == .engStart || r.body == .engHalt) = false :=
  .of_unwanted (L := fun s => s.published = x) (fun h same => same.published.trans h) (fun y m p h => by simpa using h)
    (fun p b h => by simpa using h) (fun p r other h => (serveBody_published _ p r other).trans h) fun p h => by simpa using h

/-! ### A locked capture -/

theorem serveBody_capture (s : State) (p : Port) (r : Request) (other : (r.body == .captRelease) = false) :
    (serveBody s p r).1.ramp.capture = s.ramp.capture := by
  obtain ⟨tag, body⟩ := r
  cases body
  case captRelease => cases other
  case faultClear station =>
    refine supervisorOnly_keeps (P := fun t => t.ramp.capture = s.ramp.capture) rfl ?_ p
    unfold serveFaultClearNamed serveFaultClearPlant
    (repeat' split) <;> simp
  case freezeRelease scope =>
    refine supervisorOnly_keeps (P := fun t => t.ramp.capture = s.ramp.capture) rfl ?_ p
    unfold serveFreezeRelease
    split
    · rfl
    · dsimp only
      rw [releaseScopes_ramp]
  case engStart =>
    refine supervisorOnly_keeps (P := fun t => t.ramp.capture = s.ramp.capture) rfl ?_ p
    unfold serveEngStart
    split
    · dsimp only
      rw [startEngine_eq_of_parts]
    · rfl
  all_goals
    simp only [serveBody, supervisorOnly]
    (repeat' split) <;> simp [answered, roleRefused]

theorem captureKept (d : CaptureData) : Kept
    (fun s => s.ramp.capture = .locked d ∧ s.Unwanted (· == .captRelease))
    (fun s => s.ramp.capture = .locked d ∧ s.Unwanted (· == .captRelease)) fun r => (r.body == .captRelease) = false :=
  .of_unwanted (L := fun s => s.ramp.capture = .locked d) (fun h same => same.ramp ▸ h) (fun y m p h => by simpa using h)
    (fun p b h => by simpa using h) (fun p r other h => (serveBody_capture _ p r other).trans h) fun p h => by simpa using h

/-- A publication leaves a locked capture (R131). -/
theorem publish_capture {s : State} {d : CaptureData} (h : s.ramp.capture = .locked d) (x : RunResult) :
    (s.publish x).ramp.capture = .locked d := by
  rw [publish_ramp, h]
  rfl

/-- Settles O53: each part is a law that all requests but its own keep (`Kept.of_unwanted`). -/
theorem keptUntilReleased : Obligations.KeptUntilReleased := by
  intro s t c e power
  refine ⟨fun d locked unreleased => ?_, fun frozen unwritten => ?_, fun other unstarted => ?_⟩
  · obtain ⟨unwanted, ok⟩ := unwanted_of_mayServe unreleased
    exact ((captureKept d).keeps_exec power ok
      (fun _ _ => ⟨by simpa using locked, unwanted.from (.of_ports (by simp))⟩)
      (fun run _ _ => ⟨publish_capture locked _, unwanted.from (publish_waitsFrom _ _)⟩) ⟨locked, unwanted⟩ e).1
  · have same : (fun b => match b with
        | .statCtrl .unfreeze | .statCtrl .clearAll | .statCtrl (.preset _ _) => true
        | _ => false) = Body.writesCounters := by
      funext b
      cases b
      case statCtrl action => cases action <;> rfl
      all_goals rfl
    obtain ⟨unwanted, ok⟩ := unwanted_of_mayServe (same ▸ unwritten)
    exact (((standsKept s.stats).keeps_exec power ok
      (fun _ _ => ⟨startRun_stands s, unwanted.from (.of_ports (by simp))⟩)
      (fun run _ _ => ⟨(publish_follows s _).stands, unwanted.from (publish_waitsFrom _ _)⟩) ⟨.refl _, unwanted⟩ e).1 frozen).2
  · obtain ⟨unwanted, ok⟩ := unwanted_of_mayServe unstarted
    exact ((publishedKept s.published).keeps_exec power ok
      (fun _ _ => ⟨by simp, unwanted.from (.of_ports (by simp))⟩)
      (fun _ publishes => absurd publishes other) ⟨rfl, unwanted⟩ e).1

end Sys2Proof.Machine

/-! PROOFS. What the parts of a publication tell the router: the raise-ready flag of a station can go back and forth, and
its last notice is of the value that stands. -/

namespace Sys2Proof.Machine

/-! ### The notices of a flag that goes back and forth -/

/-- Whether notices take the flag of a pair from one value to another: none, and the flag stays, or the last one is of the
value that stands. -/
def Tells (k : CauseKind) (i : StationId) (before after : Bool) (ns : List Notice) : Prop :=
  (ns = [] ∧ after = before) ∨ ∃ ms, ns = ms ++ [if after then .fires k i false else .ends k i]

section
variable {k : CauseKind} {i : StationId} {a b c : Bool} {ns ms : List Notice}

theorem Tells.append (h : Tells k i a b ns) (g : Tells k i b c ms) : Tells k i a c (ns ++ ms) := by
  rcases g with ⟨rfl, rfl⟩ | ⟨front, rfl⟩
  · rwa [List.append_nil]
  · exact .inr ⟨ns ++ front, (List.append_assoc ..).symm⟩

theorem tells_flipped (k : CauseKind) (i : StationId) (a b : Bool) : Tells k i a b (flipped k i a b) := by
  cases a <;> cases b
  · exact .inl ⟨rfl, rfl⟩
  · exact .inr ⟨[], rfl⟩
  · exact .inr ⟨[], rfl⟩
  · exact .inl ⟨rfl, rfl⟩

end

/-- From `s` to `t` the router heard, pair by pair, the notices of `rest`, and of each station's raise-ready flag such as
take it from its old value to its new one. -/
def State.Voices (s t : State) (rest : CauseKind → StationId → List Notice) : Prop :=
  ∃ path, s.Hears t path ∧
    (∀ i, Tells .raiseReady i (s.station i).ready (t.station i).ready (path .raiseReady i)) ∧
    ∀ k i, k ≠ .raiseReady → path k i = rest k i

section
variable {s t u : State} {rest rest' : CauseKind → StationId → List Notice}

theorem State.Voices.trans (h : s.Voices t rest) (g : t.Voices u rest') : s.Voices u fun k i => rest k i ++ rest' k i := by
  obtain ⟨path, heard, ready, same⟩ := h
  obtain ⟨path', heard', ready', same'⟩ := g
  exact ⟨_, heard.trans heard', fun i => (ready i).append (ready' i), fun k i other => by rw [same k i other, same' k i other]⟩

theorem State.Voices.of_eq (h : s.Voices t rest) (same : ∀ k i, k ≠ .raiseReady → rest k i = rest' k i) :
    s.Voices t rest' := by
  obtain ⟨path, heard, ready, own⟩ := h
  exact ⟨path, heard, ready, fun k i other => (own k i other).trans (same k i other)⟩

theorem State.Told.voices (h : s.Told t) : s.Voices t (s.noticesOf t) :=
  ⟨_, h.hears, fun i => tells_flipped .raiseReady i _ _, fun _ _ _ => rfl⟩

/-- A list of notices that are not of raise-ready, with the entries as they were. -/
theorem State.Voices.of_hears {ns : List Notice} (heard : t.router = s.router.hears ns)
    (others : ∀ i, ∀ n ∈ ns, n.isFor .raiseReady i = false) (stations : t.stations = s.stations) :
    s.Voices t fun k i => ns.filter (·.isFor k i) := by
  refine ⟨_, ⟨ns, heard, fun _ _ => rfl⟩, fun i => .inl ⟨?_, by rw [station_congr stations]⟩, fun _ _ _ => rfl⟩
  exact List.filter_eq_nil_iff.2 fun n mem own => Bool.false_ne_true ((others i n mem).symm.trans own)

theorem State.Voices.agrees (h : s.Voices t rest) {k : CauseKind} (other : k ≠ .raiseReady) (i : StationId) (p : Port) :
    t.router.AgreesAt (s.router.hears (rest k i)) k i p := by
  obtain ⟨path, heard, -, same⟩ := h
  exact same k i other ▸ heard.agrees k i p

theorem State.Voices.routes (h : s.Voices t rest) : t.router.routes = s.router.routes := by
  obtain ⟨path, heard, -⟩ := h
  exact heard.routes

/-- A flag set on the way has left an entry at the ports its firing reaches (R89, R157). -/
theorem State.Voices.rose (h : s.Voices t rest) {i : StationId} {p : Port} (before : (s.station i).ready = false)
    (after : (t.station i).ready = true) (reaches : (look s.router.routes 1).reaches .raiseReady i p = true) {y : Router}
    (same : y.AgreesAt t.router .raiseReady i p) (settled : (look y.sets p).fresh = []) :
    ∃ e ∈ (look y.sets p).entries, e.kind = .raiseReady ∧ e.inst = i := by
  obtain ⟨path, heard, ready, -⟩ := h
  have agrees := same.trans (heard.agrees .raiseReady i p)
  rcases ready i with ⟨-, still⟩ | ⟨ms, last⟩
  · rw [before, after] at still
    cases still
  · rw [last, hears_append, after] at agrees
    exact mem_of_fired (x := s.router.hears ms) agrees settled (by rw [hears_routes]; exact reaches)

/-- A flag cleared on the way has left the entries alone that wait for an acknowledgement (R159). -/
theorem State.Voices.fell (h : s.Voices t rest) {i : StationId} {p : Port} (before : (s.station i).ready = true)
    (after : (t.station i).ready = false) {y : Router} (same : y.AgreesAt t.router .raiseReady i p) {e : PendingEntry}
    (mem : e ∈ (look y.sets p).entries) (kind : e.kind = .raiseReady) (inst : e.inst = i) : e.release = .ack := by
  obtain ⟨path, heard, ready, -⟩ := h
  have agrees := same.trans (heard.agrees .raiseReady i p)
  rcases ready i with ⟨-, still⟩ | ⟨ms, last⟩
  · rw [before, after] at still
    cases still
  · rw [last, hears_append, after] at agrees
    have agrees : y.AgreesAt ((s.router.hears ms).conditionEnded .raiseReady i) .raiseReady i p := agrees
    have here : e ∈ (look y.sets p).all.filter fun e => e.isFor .raiseReady i :=
      List.mem_filter.2 ⟨List.mem_append_left _ mem, (isFor_iff e _ i).2 ⟨kind, inst⟩⟩
    rw [agrees, filter_conditionEnded_own] at here
    have kept := (List.mem_filter.1 here).2
    cases release : e.release with
    | ack => rfl
    | clear => simp [release] at kept

end

/-! ### Parts that call for the notices of their two states -/

/-- From `s` to `t` the router heard the notices that the two states call for, but that the raise-ready flags may have
gone back and forth; no status was cleared, the unit was not unfrozen and no entry became STALE. -/
structure State.Relays (s t : State) : Prop where
  voices : s.Voices t (s.noticesOf t)
  latched : ∀ i, (s.station i).Latched (t.station i)
  frozen : s.stats.frozen = true → t.stats.frozen = true
  unstale : ∀ i, (t.station i).state = .stale → (s.station i).state = .stale

section
variable {s t u : State}

theorem State.Told.relays (h : s.Told t) (unstale : ∀ i, (t.station i).state = .stale → (s.station i).state = .stale) :
    s.Relays t := ⟨h.voices, h.latched, h.frozen, unstale⟩

/-- Parts that leave the entries' states as they were. -/
theorem State.Told.relays_of_states (h : s.Told t) (states : ∀ i, (t.station i).state = (s.station i).state) : s.Relays t :=
  h.relays fun i stale => (states i).symm.trans stale

theorem State.Relays.trans (h : s.Relays t) (g : t.Relays u) : s.Relays u where
  voices := (h.voices.trans g.voices).of_eq fun k i other => by
    refine noticesOf_join h.latched g.latched h.frozen g.frozen (fun _ => ?_) (absurd · other)
    by_cases mid : (t.station i).state = .stale
    · exact .inl (by rw [mid, h.unstale i mid])
    · exact .inr (by rw [beq_eq_false_iff_ne.2 mid, beq_eq_false_iff_ne.2 (mt (g.unstale i) mid)])
  latched i := (h.latched i).trans (g.latched i)
  frozen := g.frozen ∘ h.frozen
  unstale i := h.unstale i ∘ g.unstale i

/-- Parts that change nothing the notices are about. -/
theorem State.Relays.of_same (router : t.router = s.router) (stats : t.stats = s.stats)
    (stations : ∀ i, (t.station i).ready = (s.station i).ready ∧ (t.station i).state = (s.station i).state ∧
      (t.station i).statuses = (s.station i).statuses) : s.Relays t :=
  (State.Told.of_same router stats fun i => by
    obtain ⟨ready, state, statuses⟩ := stations i
    exact ⟨ready, by rw [state], statuses⟩).relays_of_states fun i => (stations i).2.1

theorem State.Relays.of_blocks (router : t.router = s.router) (stats : t.stats = s.stats) (stations : t.stations = s.stations) :
    s.Relays t :=
  .of_same router stats fun i => by rw [station_congr stations]; exact ⟨rfl, rfl, rfl⟩

theorem evalReadyAll_relays (s : State) : s.Relays s.evalReadyAll :=
  (evalReadyAll_told s).relays_of_states fun i => by rw [evalReadyAll_station]

theorem evalReady_relays (s : State) (i : StationId) : s.Relays (s.evalReady i) :=
  (evalReady_told s i).relays_of_states fun j => by
    rw [station_evalReady]
    split <;> rfl

/-- Where only raise-ready flags change, no other notice is called for. -/
theorem noticesOf_flags {i : StationId} (state : (t.station i).state = (s.station i).state)
    (statuses : (t.station i).statuses = (s.station i).statuses) (stats : t.stats = s.stats) {k : CauseKind}
    (other : k ≠ .raiseReady) : s.noticesOf t k i = [] := by
  cases k
  case raiseReady => exact absurd rfl other
  all_goals
    simp only [State.noticesOf, state, flipped_same, newStatuses_of_same statuses, List.replicate_zero,
      freezings_congr (s := s) (t := s) rfl stats, freezings_self, ite_self]

end

end Sys2Proof.Machine

/-! PROOFS. What the Ramp Monitor's share of a publication tells the router. -/

namespace Sys2Proof.Machine

/-! ### The notices, block by block -/

/-- The notice of a cause that fires while its condition holds (R134). -/
def whileNotice (k : CauseKind) (holds : Bool) : Notice := if holds then .fires k 0 false else .ends k 0

/-- The firings of a run's violations (R122, R131). -/
def State.violationNotices (s : State) (x : RunResult) : List Notice :=
  (if x.soft then [.fires .rampSoft 0 false] else []) ++
    if x.hard then [.fires .rampHard 0 (!s.ramp.capture.isLocked)] else []

/-- Whether a run freezes a scope that its counts leave released (R125). -/
def State.freezesAnew (s : State) (x : RunResult) : Bool :=
  match x.freezes with
  | some n => !(look (s.countedScopes x) n).frozen
  | none => false

/-- What a new table of scopes tells the router before raise-ready is found again (R129). -/
def State.thawNotices (s : State) (v : Vector Scope 5) : List Notice := if s.thaws v then [.ends .freeze 0] else []

/-- The notices of the scopes: the end of FREEZE when the last one is released, then its firing (R125, R129). -/
def State.scopeNotices (s : State) (x : RunResult) : List Notice :=
  s.thawNotices (s.countedScopes x) ++ if s.freezesAnew x then [.fires .freeze 0 false] else []

/-- The notices of the run-scoped causes (R134). -/
def RunResult.causeNotices (x : RunResult) : List Notice :=
  [whileNotice .collapse x.record.collapsed, whileNotice .shortfall (0 < x.record.shortfall),
    whileNotice .excess (0 < x.record.excess), whileNotice .meterFallback x.sample.fallback]

/-- All notices of a publication but those of the entries and of the Statistics Unit. -/
def State.rampNotices (s : State) (x : RunResult) : List Notice :=
  s.violationNotices x ++ s.scopeNotices x ++ x.causeNotices

/-! ### The blocks -/

section
variable {s : State} {x : RunResult}

theorem rampViolations_router (s : State) (x : RunResult) :
    (s.rampViolations x).router = s.router.hears (s.violationNotices x) := by
  unfold State.rampViolations State.violationNotices
  cases x.soft <;> cases x.hard <;> rfl

theorem fireWhile_router (s : State) (k : CauseKind) (c : Bool) :
    (s.fireWhile k c).router = s.router.hear (whileNotice k c) := by
  cases c <;> rfl

theorem runCauses_router (s : State) (x : RunResult) : (s.runCauses x).router = s.router.hears x.causeNotices := by
  simp only [State.runCauses, fireWhile_router]
  rfl

/-- No notice of the violations or the causes is of raise-ready. -/
theorem violationNotices_others (s : State) (x : RunResult) (i : StationId) :
    ∀ n ∈ s.violationNotices x, n.isFor .raiseReady i = false := by
  unfold State.violationNotices
  cases x.soft <;> cases x.hard <;> simp [Notice.isFor]

theorem whileNotice_isFor (k k' : CauseKind) (i : StationId) (c : Bool) :
    (whileNotice k c).isFor k' i = (k == k' && 0 == i) := by
  cases c <;> rfl

theorem causeNotices_others (x : RunResult) (i : StationId) : ∀ n ∈ x.causeNotices, n.isFor .raiseReady i = false := by
  simp only [RunResult.causeNotices, List.forall_mem_cons, whileNotice_isFor]
  simp

/-- A block that finds raise-ready again behind its notices. -/
theorem evalReadyAll_voices {t u : State} {ns : List Notice} (heard : t.router = s.router.hears ns)
    (others : ∀ i, ∀ n ∈ ns, n.isFor .raiseReady i = false) (stations : t.stations = s.stations) (found : u = t.evalReadyAll) :
    s.Voices u fun k i => ns.filter (·.isFor k i) := by
  have told : t.Told u := found ▸ evalReadyAll_told t
  have entry : ∀ i, u.station i = { t.station i with ready := t.readyCondition i } := fun i => found ▸ evalReadyAll_station t i
  have stats : u.stats = t.stats := found ▸ (evalReadyAll_frame t).2.2.2.2.2.2.1
  clear found
  refine ((State.Voices.of_hears heard others stations).trans told.voices).of_eq fun k i other => ?_
  rw [noticesOf_flags (by rw [entry]) (by rw [entry]) stats other, List.append_nil]

theorem thawNotices_others (s : State) (v : Vector Scope 5) (i : StationId) :
    ∀ n ∈ s.thawNotices v, n.isFor .raiseReady i = false := by
  unfold State.thawNotices
  cases s.thaws v <;> simp [Notice.isFor]

theorem withScopes_router (s : State) (v : Vector Scope 5) : (s.withScopes v).router = s.router.hears (s.thawNotices v) := by
  unfold State.thawNotices State.withScopes
  cases s.thaws v <;> rfl

theorem releaseScopes_voices (s : State) (v : Vector Scope 5) :
    s.Voices (s.releaseScopes v) fun k i => (s.thawNotices v).filter (·.isFor k i) := by
  cases frees : s.frees v with
  | false =>
    have kept : s.releaseScopes v = s.withScopes v := by
      simp only [State.withScopes, State.thaws, frees]
      exact if_neg (Bool.eq_false_iff.1 frees)
    rw [kept]
    exact .of_hears (withScopes_router s v) (thawNotices_others s v) rfl
  | true =>
    refine evalReadyAll_voices (t := s.withScopes v) (withScopes_router s v) (thawNotices_others s v) rfl ?_
    have unfolded : s.releaseScopes v =
        (if ({ s.ramp with scopes := v } : Ramp).anyFrozen then s.setRamp { s.ramp with scopes := v }
          else (s.setRamp { s.ramp with scopes := v }).conditionEnded .freeze 0).evalReadyAll := if_pos frees
    rw [unfolded]
    simp only [State.withScopes, State.thaws, frees, Bool.true_and]
    cases ({ s.ramp with scopes := v } : Ramp).anyFrozen <;> rfl

theorem countScopes_voices (s : State) (x : RunResult) :
    s.Voices (s.countScopes x) fun k i => (s.thawNotices (s.countedScopes x)).filter (·.isFor k i) := by
  unfold State.countScopes State.countedScopes
  cases x.ramp.checked with
  | true => exact releaseScopes_voices s _
  | false =>
    have still : s.thawNotices s.ramp.scopes = [] := if_neg (by simp [State.thaws, State.frees])
    simp only [Bool.false_eq_true, if_false, still]
    exact .of_hears rfl (fun _ _ mem => by cases mem) rfl

theorem freezeScope_voices (s : State) (n : ScopeId) :
    s.Voices (s.freezeScope n) fun k i =>
      (if !(look s.ramp.scopes n).frozen then [Notice.fires .freeze 0 false] else []).filter (·.isFor k i) := by
  cases frozen : (look s.ramp.scopes n).frozen with
  | true =>
    have kept : s.freezeScope n = s.setRamp { s.ramp with scopes := put s.ramp.scopes n { frozen := true, cleanRuns := 0 } } :=
      if_pos frozen
    rw [kept]
    exact .of_hears (ns := []) rfl (fun _ _ mem => by cases mem) rfl
  | false =>
    have found : s.freezeScope n = ((s.setRamp
        { s.ramp with scopes := put s.ramp.scopes n { frozen := true, cleanRuns := 0 } }).firePlant .freeze).evalReadyAll :=
      if_neg (by simp [frozen])
    generalize before : (s.setRamp { s.ramp with scopes := put s.ramp.scopes n { frozen := true, cleanRuns := 0 } }).firePlant
      .freeze = u at found
    have heard : u.router = s.router.hears [.fires .freeze 0 false] := by rw [← before]; rfl
    have stations : u.stations = s.stations := by rw [← before]; rfl
    exact evalReadyAll_voices heard (by simp [Notice.isFor]) stations found

theorem rampScopes_voices (s : State) (x : RunResult) :
    s.Voices (s.rampScopes x) fun k i => (s.scopeNotices x).filter (·.isFor k i) := by
  have counted := countScopes_voices s x
  rw [rampScopes_eq, State.scopeNotices, State.freezesAnew]
  cases x.freezes with
  | none => simpa using counted
  | some n =>
    have froze := counted.trans (freezeScope_voices (s.countScopes x) n)
    rw [countScopes_ramp] at froze
    exact froze.of_eq fun k i _ => (List.filter_append ..).symm

/-- What a publication tells the router before the accounting step (R122, R125, R129, R134). -/
theorem rampPublication_voices (s : State) (x : RunResult) :
    s.Voices (s.rampPublication x) fun k i => (s.rampNotices x).filter (·.isFor k i) := by
  have violations : s.Voices (s.rampViolations x) _ :=
    .of_hears (rampViolations_router s x) (violationNotices_others s x) (by simp)
  have causes : ((s.rampViolations x).rampScopes x).Voices (s.rampPublication x) _ :=
    .of_hears (runCauses_router _ x) (causeNotices_others x) (by simp [State.rampPublication])
  have scopes : (s.rampViolations x).scopeNotices x = s.scopeNotices x := by
    have same : (s.rampViolations x).ramp.scopes = s.ramp.scopes := rampViolations_scopes s x
    simp only [State.scopeNotices, State.freezesAnew, State.thawNotices, State.thaws, State.frees, State.countedScopes, same]
    rfl
  refine ((violations.trans (rampScopes_voices _ x)).trans causes).of_eq fun k i _ => ?_
  rw [scopes, State.rampNotices, List.filter_append, List.filter_append]

/-! ### The entries -/

/-- But for raise-ready, the scopes change no entry. -/
theorem freezeScope_station (s : State) (n : ScopeId) (i : StationId) :
    (s.freezeScope n).station i = { s.station i with ready := ((s.freezeScope n).station i).ready } := by
  unfold State.freezeScope
  dsimp only
  split
  · rfl
  · rw [evalReadyAll_station]
    rfl

theorem countScopes_station (s : State) (x : RunResult) (i : StationId) :
    (s.countScopes x).station i = { s.station i with ready := ((s.countScopes x).station i).ready } := by
  unfold State.countScopes
  split
  · rw [releaseScopes_station]
  · rfl

theorem rampPublication_station (s : State) (x : RunResult) (i : StationId) :
    (s.rampPublication x).station i = { s.station i with ready := ((s.rampPublication x).station i).ready } := by
  have causes : (s.rampPublication x).station i = ((s.rampViolations x).rampScopes x).station i :=
    (runCauses_reads _ x).2.1 i
  have before : (s.rampViolations x).station i = s.station i := (rampViolations_reads s x).2.1 i
  have counted := countScopes_station (s.rampViolations x) x i
  rw [before] at counted
  rw [causes, rampScopes_eq]
  cases x.freezes with
  | none => exact counted
  | some n =>
    have froze := freezeScope_station ((s.rampViolations x).countScopes x) n i
    rw [counted] at froze
    exact froze

end

end Sys2Proof.Machine

/-! PROOFS. The accounting step and the take deadlines of a publication: the entries, the source events and the notices. -/

namespace Sys2Proof.Machine

/-! ### Lists of which some are empty -/

/-- Empty lists count for nothing in an interleaving. -/
theorem Interleaves.of_nonempty {α : Type} {ls ms : List (List α)} {order : List α} (h : Interleaves ls order)
    (same : ms.filter (fun l => !l.isEmpty) = ls.filter fun l => !l.isEmpty) : Interleaves ms order := by
  induction h generalizing ms with
  | done ls empty =>
    refine .done ms (List.flatten_eq_nil_iff.2 fun l mem => ?_)
    have none : ls.filter (fun l => !l.isEmpty) = [] :=
      List.filter_eq_nil_iff.2 fun k own => by simp [List.flatten_eq_nil_iff.1 empty k own]
    simpa using List.filter_eq_nil_iff.1 (same.trans none) l mem
  | next before after l x order _ ih =>
    have split : ms.filter (fun l => !l.isEmpty) =
        before.filter (fun l => !l.isEmpty) ++ (x :: l) :: after.filter (fun l => !l.isEmpty) := by
      rw [same, List.filter_append, List.filter_cons_of_pos (by rfl)]
    obtain ⟨m, m', rfl, front, back⟩ := List.filter_eq_append_iff.1 split
    obtain ⟨e, m'', rfl, empty, -, rest⟩ := List.filter_eq_cons_iff.1 back
    have empties : e.filter (fun l => !l.isEmpty) = [] := List.filter_eq_nil_iff.2 empty
    have next := ih (ms := (m ++ e) ++ l :: m'') (by
      simp only [List.filter_append, List.filter_cons, front, empties, rest, List.append_nil])
    simpa using Interleaves.next (m ++ e) m'' l x order next

theorem Interleaves.with_empty {α β : Type} {p : β → Bool} {f : β → List α} {bs : List β} {order : List α}
    (h : Interleaves ((bs.filter p).map f) order) (none : ∀ b, p b = false → f b = []) : Interleaves (bs.map f) order := by
  refine h.of_nonempty ?_
  clear h
  induction bs with
  | nil => rfl
  | cons b bs ih =>
    cases own : p b with
    | true => rw [List.filter_cons_of_pos own, List.map_cons, List.map_cons, List.filter_cons, List.filter_cons, ih]
    | false =>
      rw [List.filter_cons_of_neg (by simp [own]), List.map_cons, none b own]
      exact (List.filter_cons_of_neg (by simp)).trans ih

/-- What a list puts first is done before its second. -/
theorem Interleaves.first_earlier {α : Type} {parts : List (List α)} {done rest : List α} {x y : α}
    (nodup : parts.flatten.Nodup) (h : Interleaves parts (done ++ y :: rest)) (listed : [x, y] ∈ parts) : x ∈ done := by
  obtain ⟨before, after, same, inDone, inRest⟩ := List.sublist_append_iff.1 (h.sublist _ listed)
  cases before with
  | cons z before =>
    obtain ⟨rfl, -⟩ := List.cons.inj same
    exact inDone.subset (List.mem_cons_self ..)
  | nil =>
    rw [List.nil_append] at same
    subst same
    have last := (List.nodup_cons.1 (List.nodup_append.1 (h.perm.nodup_iff.2 nodup)).2.1).1
    cases inRest with
    | cons _ sub => exact absurd (sub.subset (by simp)) last
    | cons_cons _ sub => exact absurd (sub.subset (by simp)) last

/-! ### The accounting step -/

theorem statPublication_freezing (s : State) (es : RunEvents) (plant : PlantState) (collapsed : Bool) :
    (s.statPublication es plant collapsed).router =
      s.router.fired (s.freezings (s.statPublication es plant collapsed)) .statsFreeze 0 := by
  cases frozen : s.stats.frozen with
  | true =>
    rw [statPublication_of_frozen frozen, State.freezings, frozen]
    rfl
  | false =>
    rw [statPublication_of_counting frozen]
    split
    · rw [State.freezings, frozen]
      rfl
    · rw [State.freezings]
      simp only [setStats_stats, Stats.published, frozen]
      rfl

theorem statPublication_relays (s : State) (es : RunEvents) (plant : PlantState) (collapsed : Bool) :
    s.Relays (s.statPublication es plant collapsed) :=
  (State.Told.of_counted (statPublication_freezing s es plant collapsed) (by simp) fun frozen => by
    rw [statPublication_of_frozen frozen]
    exact frozen).relays_of_states (by simp)

/-! ### One deadline -/

theorem endRecord_relays (s : State) (i : StationId) : s.Relays (s.endRecord i) :=
  (endRecord_told s i).relays_of_states fun j => by
    by_cases own : j = i
    · rw [own, endRecord_station, (worst_keeps _).1]
    · rw [(endRecord_act s i).others j own]

theorem respondEnd_relays {s : State} {i : StationId} (ev : MonEvent)
    (closed : (s.station i).state = .online → (s.station i).interlock = none) : s.Relays (s.respondEnd i ev) := by
  refine (respondEnd_told ev closed).relays fun j stale => ?_
  by_cases own : j = i
  · subst own
    rw [respondEnd_station ev closed] at stale
    simp only [Station.afterEvent] at stale
    split at stale
    · cases stale
    · exact stale
  · rwa [(respondEnd_act ev closed).others j own] at stale

/-! ### The deadlines of all stations (R84) -/

section
variable {g t : State} {done : List (StationId × DeadlinePart)}

/-- The source events of a part. -/
def State.deadlinePartEvents (g : State) : StationId × DeadlinePart → List SourceEvent
  | (i, .ends) => (g.station i).endEvents i
  | (i, .responds) => (g.station i).faultEvents g.params.monInterlock i

/-- An entry after some of the parts, but for raise-ready. -/
def State.deadlineEntry (g : State) (done : List (StationId × DeadlinePart)) (i : StationId) : Station :=
  if (i, .responds) ∈ done then (g.station i).worst.afterEvent g.params.monInterlock .takeTimeout
  else if (i, .ends) ∈ done then (g.station i).worst else g.station i

/-- `t` is `g` after some of the parts. -/
structure State.DeadlinesBy (g t : State) (done : List (StationId × DeadlinePart)) : Prop where
  params : t.params = g.params
  entries : ∀ i, t.station i = { g.deadlineEntry done i with ready := (t.station i).ready }
  relays : g.Relays t
  stats : t.stats = (g.statEvents (done.flatMap g.deadlinePartEvents)).stats

theorem deadlineEntry_other {x : StationId × DeadlinePart} {j : StationId} (other : j ≠ x.1) :
    g.deadlineEntry (done ++ [x]) j = g.deadlineEntry done j := by
  obtain ⟨i, part⟩ := x
  have ne : ∀ q, (j, q) ≠ (i, part) := fun q same => other (Prod.mk.inj same).1
  simp [State.deadlineEntry, ne]

theorem State.DeadlinesBy.stats_next (h : g.DeadlinesBy t done) {u : State} {x : StationId × DeadlinePart}
    (act : t.Act u x.1 (g.deadlinePartEvents x)) :
    u.stats = (g.statEvents ((done ++ [x]).flatMap g.deadlinePartEvents)).stats := by
  rw [List.flatMap_append, statEvents_append, act.stats]
  simpa using statEvents_stats_congr h.stats _

theorem deadlinesBy_ends {i : StationId} (h : g.DeadlinesBy t done) (fresh : (i, .ends) ∉ done)
    (early : (i, .responds) ∉ done) : g.DeadlinesBy (t.endRecord i) (done ++ [(i, .ends)]) := by
  have entry := h.entries i
  rw [State.deadlineEntry, if_neg early, if_neg fresh] at entry
  have act := endRecord_act t i
  have events : (t.station i).endEvents i = (g.station i).endEvents i := by rw [entry]; rfl
  rw [events] at act
  refine ⟨act.params.trans h.params, fun j => ?_, h.relays.trans (endRecord_relays t i), h.stats_next act⟩
  by_cases own : j = i
  · subst own
    have worst : (t.station j).worst = { (g.station j).worst with ready := (t.station j).ready } :=
      (congrArg Station.worst entry).trans (blind_worst (g.station j) _)
    rw [endRecord_station, worst, State.deadlineEntry, if_neg (by simpa using early), if_pos (by simp)]
  · rw [act.others j own, deadlineEntry_other own]
    exact h.entries j

theorem deadlinesBy_responds {i : StationId} (h : g.DeadlinesBy t done) (ended : (i, .ends) ∈ done)
    (fresh : (i, .responds) ∉ done) : g.DeadlinesBy (t.respondEnd i .takeTimeout) (done ++ [(i, .responds)]) := by
  have entry := h.entries i
  rw [State.deadlineEntry, if_neg fresh, if_pos ended] at entry
  have closed : (t.station i).state = .online → (t.station i).interlock = none := fun _ => by
    rw [entry]
    exact worst_interlock _
  have mode : t.params.monMode MonEvent.takeTimeout.monitor = g.params.monInterlock := congrArg Params.monInterlock h.params
  have act := respondEnd_act .takeTimeout closed
  have left := respondEnd_station .takeTimeout closed
  have kept := worst_keeps (g.station i)
  have events : (t.station i).faultEvents g.params.monInterlock i = (g.station i).faultEvents g.params.monInterlock i := by
    unfold Station.faultEvents Station.wouldFault
    rw [entry, kept.1, kept.2.2.2.1]
  rw [mode] at act left
  rw [events] at act
  refine ⟨act.params.trans h.params, fun j => ?_, h.relays.trans (respondEnd_relays _ closed), h.stats_next act⟩
  by_cases own : j = i
  · subst own
    rw [left, entry, State.deadlineEntry, if_pos (by simp)]
    rfl
  · rw [act.others j own, deadlineEntry_other own]
    exact h.entries j

theorem deadlinesBy_start (g : State) (n : Nat) : g.DeadlinesBy { g with choices := n } [] :=
  ⟨rfl, fun _ => rfl, .of_blocks rfl rfl rfl, rfl⟩

end

/-- The parts of the deadlines of one publication. -/
def State.deadlineParts (g : State) : List (List (StationId × DeadlinePart)) :=
  (stationIds.filter g.atDeadline).map fun i => [(i, .ends), (i, .responds)]

theorem mem_deadlineParts {g : State} {i : StationId} {part : DeadlinePart} :
    (i, part) ∈ g.deadlineParts.flatten ↔ g.atDeadline i = true := by
  cases part <;> simp [State.deadlineParts, mem_stationIds]

theorem deadlineParts_nodup (g : State) : g.deadlineParts.flatten.Nodup := by
  unfold State.deadlineParts
  have once : (stationIds.filter g.atDeadline).Nodup := List.Nodup.filter _ (by decide)
  generalize stationIds.filter g.atDeadline = late at once ⊢
  induction late with
  | nil => exact List.nodup_nil
  | cons i is ih =>
    obtain ⟨fresh, rest⟩ := List.nodup_cons.1 once
    simpa [fresh] using ih rest

section
variable (s : State)

theorem countPublication_of_some {e : Station} {k : Interlock} (h : e.interlock = some k) :
    e.countPublication = { e with interlock := some { k with publications := k.publications + 1 } } := by
  simp only [Station.countPublication, h, Option.map_some]

theorem countPublication_of_none {e : Station} (h : e.interlock = none) : e.countPublication = e := by
  cases e
  simp_all [Station.countPublication]

/-- Whether an entry's record reaches the deadline at a publication (R84). -/
def Station.reachesDeadline (e : Station) (x : Params) : Bool :=
  match e.interlock with
  | some k => x.takeDeadline ≤ k.publications + 1
  | none => false

theorem counted_atDeadline (i : StationId) :
    (s.updStations fun _ e => e.countPublication).atDeadline i = (s.station i).reachesDeadline s.params := by
  unfold State.atDeadline Station.reachesDeadline
  simp only [station_updStations]
  cases opened : (s.station i).interlock with
  | none => rw [countPublication_of_none opened, opened]
  | some k => rw [countPublication_of_some opened]; rfl

/-- The two ways a publication leaves an entry, with the source events (R73, R84). -/
theorem afterDeadline_eq (e : Station) (x : Params) (i : StationId) :
    e.afterDeadline x = (if e.reachesDeadline x then e.countPublication.worst.afterEvent x.monInterlock .takeTimeout
        else e.countPublication) ∧
      e.deadlineEvents x i = if e.reachesDeadline x then
        e.countPublication.endEvents i ++ e.countPublication.faultEvents x.monInterlock i else [] := by
  unfold Station.afterDeadline Station.deadlineEvents Station.reachesDeadline
  cases opened : e.interlock with
  | none => rw [countPublication_of_none opened]; exact ⟨rfl, rfl⟩
  | some k =>
    rw [countPublication_of_some opened]
    simp only [decide_eq_true_eq]
    split <;> exact ⟨rfl, rfl⟩

/-- The Station Table after the deadlines of a publication: the entries, the notices, the source events and the choices
(R84). -/
theorem takeDeadlines_result :
    (∀ i, s.takeDeadlines.station i =
      { (s.station i).afterDeadline s.params with ready := (s.takeDeadlines.station i).ready }) ∧
      s.Relays s.takeDeadlines ∧
      s.CountsTogether s.takeDeadlines (stationIds.map fun i => (s.station i).deadlineEvents s.params i) ∧
      (s.stats.frozen = true ∨ s.takeDeadlines.stats.frozen = false → s.takeDeadlines.choices = s.choices) := by
  obtain ⟨order, whole, closed, counts, choices⟩ := together_steps
    (s := s.updStations fun _ e => e.countPublication) (act := State.deadlinePart)
    (parts := (s.updStations fun _ e => e.countPublication).deadlineParts)
    (s.updStations fun _ e => e.countPublication).deadlinePartEvents
    (P := fun done t => (s.updStations fun _ e => e.countPublication).DeadlinesBy t done) (deadlinesBy_start _)
    (fun {done x rest t} whole h => by
      have nodup := deadlineParts_nodup (s.updStations fun _ e => e.countPublication)
      obtain ⟨i, part⟩ := x
      obtain ⟨fresh, listed, -⟩ := whole.next_fresh nodup
      have own := mem_deadlineParts.1 listed
      have pair : [(i, DeadlinePart.ends), (i, .responds)] ∈ (s.updStations fun _ e => e.countPublication).deadlineParts :=
        List.mem_map.2 ⟨i, List.mem_filter.2 ⟨mem_stationIds i, own⟩, rfl⟩
      cases part with
      | ends => exact deadlinesBy_ends h fresh (whole.second_later nodup pair)
      | responds => exact deadlinesBy_responds h (whole.first_earlier nodup pair) fresh)
    (fun h => h.stats) fun t x => by
      obtain ⟨i, part⟩ := x
      cases part <;> simp [State.deadlinePart]
  have listed : ∀ i part, (i, part) ∈ order ↔ (s.station i).reachesDeadline s.params = true := fun i part => by
    rw [whole.perm.mem_iff, mem_deadlineParts, counted_atDeadline]
  have grown : s.Relays (s.updStations fun _ e => e.countPublication) :=
    .of_same rfl rfl fun i => by
      rw [station_updStations]
      exact ⟨rfl, rfl, rfl⟩
  refine ⟨fun i => ?_, grown.trans closed.relays, ?_, choices⟩
  · have entry := closed.entries i
    simp only [State.deadlineEntry, listed, station_updStations] at entry
    rw [(afterDeadline_eq _ _ i).1]
    refine entry.trans ?_
    split <;> rfl
  · obtain ⟨ends, whole, stats⟩ := counts
    have lists : (s.updStations fun _ e => e.countPublication).deadlineParts.map
        (·.flatMap (s.updStations fun _ e => e.countPublication).deadlinePartEvents) =
        (stationIds.filter (s.updStations fun _ e => e.countPublication).atDeadline).map fun i =>
          (s.station i).deadlineEvents s.params i := by
      rw [State.deadlineParts, List.map_map]
      refine List.map_congr_left fun i mem => ?_
      have late := (List.mem_filter.1 mem).2
      rw [counted_atDeadline] at late
      rw [(afterDeadline_eq _ _ i).2, if_pos late]
      simp [State.deadlinePartEvents]
    refine ⟨ends, (lists ▸ whole).with_empty fun i early => ?_,
      stats.trans (statEvents_stats_congr (s := s.updStations fun _ e => e.countPublication) (t := s) rfl _)⟩
    rw [counted_atDeadline] at early
    rw [(afterDeadline_eq _ _ i).2, early]
    rfl

end

end Sys2Proof.Machine

/-! PROOFS. The held takes of a publication: each is answered from what the takes before it left. -/

namespace Sys2Proof.Machine

/-! ### What a take meets -/

/-- The record, the scopes and the entries of a state, but for raise-ready, are those of a view. -/
structure State.Shows (s : State) (v : TakeView) : Prop where
  record : s.published = v.record
  scopes : s.ramp.scopes = v.scopes
  entries : ∀ i, s.station i = { look v.entries i with ready := (s.station i).ready }

section
variable {s : State} {v : TakeView} (h : s.Shows v) (i : StationId)
include h

theorem State.Shows.fields :
    (s.station i).state = (look v.entries i).state ∧ (s.station i).rating = (look v.entries i).rating ∧
      (s.station i).group = (look v.entries i).group ∧ (s.station i).applied = (look v.entries i).applied ∧
      (s.station i).interlock = (look v.entries i).interlock ∧ (s.station i).park = (look v.entries i).park := by
  rw [h.entries i]
  exact ⟨rfl, rfl, rfl, rfl, rfl, rfl⟩

theorem State.Shows.offer : s.liveOffer s.published i = v.offer i := by
  rw [State.liveOffer, TakeView.offer, h.record, (h.fields i).2.1]

theorem State.Shows.frozen : s.raiseFrozen i = v.frozen i := by
  rw [State.raiseFrozen, TakeView.frozen, h.scopes, (h.fields i).2.2.1]

omit i in
theorem State.Shows.pool : s.pool = v.pool := by
  have used : ∀ j, (s.station j).applied + (s.station j).reserved =
      (look v.entries j).applied + ((look v.entries j).interlock.map Interlock.reserved).getD 0 := fun j => by
    obtain ⟨-, -, -, applied, interlock, -⟩ := h.fields j
    rw [reserved_eq, applied, interlock]
  simp only [State.pool, TakeView.pool, h.record, used]

theorem State.Shows.granted : (grantOf s i).2 = v.granted i := by
  rw [grantOf_granted, TakeView.granted, h.offer, h.frozen, h.pool, (h.fields i).2.2.2.1]

theorem State.Shows.opens : ((s.station i).state = .online && look s.published.mask i) = v.opens i := by
  rw [TakeView.opens, h.record, (h.fields i).1]
  cases (look v.entries i).state <;> rfl

theorem State.Shows.record_opened : grantRecord s i =
    { granted := v.granted i, reserved := v.granted i - (look v.entries i).applied,
      takeTag := intervalTag v.record.number, publications := 0 } := by
  rw [grantRecord, h.granted, (h.fields i).2.2.2.1, h.record]
  rfl

/-- The source event of a take from the record. -/
theorem State.Shows.raise (opens : v.opens i = true) :
    s.raiseEvent i (grantOf s i).1 (s.station i).applied (grantOf s i).2 (s.liveOffer s.published i) =
      s.statEvents (v.events i) := by
  rw [raiseEvent_grantOf, TakeView.events, h.offer, h.granted, (h.fields i).2.2.2.1, opens]
  simp only [Bool.true_eq_false, false_or]
  split
  · rfl
  · split <;> rfl

/-- The answer to a take (R75, R76, R78, R79, R80). -/
theorem State.Shows.reply (live : s.halted = false) : (answerTake s i).2 = v.reply s.params i := by
  obtain ⟨state, rating, -, applied, -, park⟩ := h.fields i
  have opens := h.opens i
  rw [TakeView.reply, ← state]
  by_cases absent : (s.station i).state = .absent
  · rw [answerTake, if_pos absent]
    simp only [if_pos absent]
    rfl
  · cases mask : v.opens i with
    | true =>
      rw [answerTake, if_neg absent, live, opens, mask]
      simp only [Bool.false_eq_true, if_false, if_true, if_neg absent]
      rw [takeFromRecord_reply, grantOf_code, h.granted, h.offer, h.frozen, h.record, applied]
      rfl
    | false =>
      rw [answerTake, if_neg absent, live, opens, mask]
      simp only [Bool.false_eq_true, if_false, if_neg absent]
      rw [fixedReply, fixedCeiling, faultCapOf, h.offer, h.record, applied, rating, park]
      rfl

/-- A take from the record leaves its interlock open in the entry (R71, R79). -/
theorem State.Shows.opened (opens : v.opens i = true) : (takeFromRecord s i).1.Shows (v.answered i) := by
  have entry : ∀ j, (takeFromRecord s i).1.station j =
      if i = j then { s.station i with interlock := some (grantRecord s i), ready := false } else s.station j := fun j => by
    rw [takeFromRecord_state]
    exact station_updStation s i j fun e => { e with interlock := some (grantRecord s i), ready := false }
  rw [TakeView.answered, if_pos opens]
  refine ⟨(takeFromRecord_frame s i).2.2.1.trans h.record, ?_, fun j => ?_⟩
  · rw [(takeFromRecord_frame s i).2.2.2.2.2.1]
    exact h.scopes
  · rw [entry, look_put]
    split
    · next own =>
      subst own
      rw [h.record_opened, h.entries i]
    · exact h.entries j

omit h in
theorem raiseEvent_relays (s : State) (i : StationId) (c : AnswerCode) (a g o : Nat) : s.Relays (s.raiseEvent i c a g o) := by
  unfold State.raiseEvent
  split
  · exact .of_blocks rfl rfl rfl
  · split <;> exact (statEvent_told ..).relays_of_states (by simp)

omit h in
/-- The notices of a take from the record. -/
theorem takeFromRecord_relays : s.Relays (takeFromRecord s i).1 := by
  have stands : s.Relays (s.updStation i fun e => { e with interlock := some (grantRecord s i) }) :=
    .of_same rfl rfl fun j => by
      rw [station_updStation]
      split
      · next own => exact own ▸ ⟨rfl, rfl, rfl⟩
      · exact ⟨rfl, rfl, rfl⟩
  exact (stands.trans (raiseEvent_relays _ i _ _ _ _)).trans (evalReady_relays _ i)

/-- What a take leaves: the entries, the source event and the notices. -/
theorem State.Shows.answerTake (live : s.halted = false) :
    (answerTake s i).1.Shows (v.answered i) ∧ (answerTake s i).1.stats = (s.statEvents (v.events i)).stats ∧
      s.Relays (answerTake s i).1 := by
  cases opens : v.opens i with
  | true =>
    have both := (h.opens i).trans opens
    have present : (s.station i).state ≠ .absent := fun absent => by simp [absent] at both
    have took : Machine.answerTake s i = takeFromRecord s i := by
      rw [Machine.answerTake, if_neg present, live, both]
      rfl
    rw [took]
    refine ⟨h.opened i opens, ?_, takeFromRecord_relays i⟩
    rw [takeFromRecord_state, ← h.raise i opens]
    exact raiseEvent_stats_congr (s := s.updStation i fun e => { e with interlock := some (grantRecord s i) }) (t := s) rfl ..
  | false =>
    have kept : v.answered i = v := if_neg (by simp [opens])
    have none : v.events i = [] := if_pos (.inl opens)
    rw [kept, none]
    by_cases absent : (s.station i).state = .absent
    · have refused : (Machine.answerTake s i).1 = s := by rw [Machine.answerTake, if_pos absent]
      rw [refused]
      exact ⟨h, rfl, .of_blocks rfl rfl rfl⟩
    · have found : (Machine.answerTake s i).1 = s.evalReady i := by
        rw [Machine.answerTake, if_neg absent, live, h.opens i, opens]
        rfl
      have frame := evalReady_frame s i
      rw [found]
      refine ⟨⟨frame.2.2.1.trans h.record, by simpa using h.scopes, fun j => ?_⟩, by simp; rfl, evalReady_relays s i⟩
      rw [station_evalReady]
      split
      · next own =>
        subst own
        rw [h.entries i]
      · exact h.entries j

end

/-! ### The list of the held takes (R80) -/

/-- The view behind a list of takes, and the source events they give. -/
def TakeView.afterTakes (v : TakeView) (held : List HeldTake) : TakeView := held.foldl (fun v h => v.answered h.station) v

def TakeView.takeEvents (v : TakeView) : List HeldTake → List SourceEvent
  | [] => []
  | h :: held => v.events h.station ++ (v.answered h.station).takeEvents held

/-- The events listed as the statement lists them: each from the view behind the takes before it. -/
theorem takeEvents_eq (v : TakeView) (held : List HeldTake) :
    v.takeEvents held = (List.range held.length).flatMap fun n => match held[n]? with
      | some h => (v.afterTakes (held.take n)).events h.station
      | none => [] := by
  induction held generalizing v with
  | nil => rfl
  | cons h held ih =>
    rw [TakeView.takeEvents, ih, List.length_cons, List.range_succ_eq_map, List.flatMap_cons, List.flatMap_map]
    rfl

/-- The held takes answered: each shows what the next one meets. -/
theorem answerEach_shows (held : List HeldTake) {s : State} {v : TakeView} (h : s.Shows v) (live : s.halted = false) :
    (held.foldl State.answerHeldTake s).Shows (v.afterTakes held) ∧
      (held.foldl State.answerHeldTake s).stats = (s.statEvents (v.takeEvents held)).stats ∧
      s.Relays (held.foldl State.answerHeldTake s) ∧ (held.foldl State.answerHeldTake s).halted = false ∧
      (held.foldl State.answerHeldTake s).params = s.params := by
  induction held generalizing s v with
  | nil => exact ⟨h, rfl, .of_blocks rfl rfl rfl, live, rfl⟩
  | cons k held ih =>
    obtain ⟨shows, stats, relays⟩ := h.answerTake k.station live
    have shows' : (s.answerHeldTake k).Shows (v.answered k.station) := ⟨shows.record, shows.scopes, shows.entries⟩
    have stats' : (s.answerHeldTake k).stats = (s.statEvents (v.events k.station)).stats := stats
    have relays' : s.Relays (s.answerHeldTake k) := relays.trans (.of_blocks rfl rfl rfl)
    have live' : (s.answerHeldTake k).halted = false := (halted_congr (by simp)).trans live
    obtain ⟨after, counted, relayed, still, params⟩ := ih shows' live'
    refine ⟨after, counted.trans ?_, relays'.trans relayed, still, params.trans (by simp)⟩
    rw [TakeView.takeEvents, statEvents_append]
    exact statEvents_stats_congr stats' _

end Sys2Proof.Machine

/-! PROOFS. A publication as a whole: what is committed, what the Grant Unit does after it, and the notices. -/

namespace Sys2Proof.Machine

/-! ### The state after the accounting step -/

/-- A publication up to its accounting step. -/
def State.scored (s : State) (x : RunResult) : State :=
  ((s.nextEvent.commitRun x).rampPublication x).statPublication x.events x.record.plant x.record.collapsed

theorem statPublication_stats_congr {s t : State} (h : s.stats = t.stats) (es : RunEvents) (plant : PlantState)
    (collapsed : Bool) : (s.statPublication es plant collapsed).stats = (t.statPublication es plant collapsed).stats := by
  cases frozen : t.stats.frozen with
  | true => rw [statPublication_of_frozen frozen, statPublication_of_frozen (h ▸ frozen), setStats_stats, setStats_stats, h]
  | false =>
    rw [statPublication_of_counting frozen, statPublication_of_counting (h ▸ frozen), h]
    split <;> rfl

/-- The deadline does not look at raise-ready. -/
theorem blind_afterDeadline (x : Params) : BlindToReady fun e => e.afterDeadline x := fun e b => by
  cases opened : e.interlock with
  | none => simp only [Station.afterDeadline, opened]
  | some k =>
    simp only [Station.afterDeadline, opened]
    split <;> rfl

section
variable (s : State) (x : RunResult)

theorem scored_kept : (s.scored x).params = s.params ∧ (s.scored x).published = x.record ∧
    (s.scored x).heldTakes = s.heldTakes ∧ (s.scored x).storage = s.storage ∧ (s.scored x).ports = s.ports ∧
    (s.scored x).choices = s.choices ∧ (s.scored x).lastClear = none ∧ (s.scored x).pending = s.pending ∧
    (s.scored x).halted = false := by
  refine ⟨?_, ?_, ?_, ?_, ?_, ?_, ?_, ?_, ?_⟩ <;> simp [State.scored, State.commitRun, State.halted]

theorem scored_scopes : (s.scored x).ramp.scopes = s.runScopes x := by
  have share : (s.scored x).ramp = ((s.nextEvent.commitRun x).rampPublication x).ramp := by simp [State.scored]
  rw [share, rampPublication_ramp]
  rfl

theorem scored_station (i : StationId) : (s.scored x).station i = { s.station i with ready := ((s.scored x).station i).ready } := by
  have share : (s.scored x).station i = ((s.nextEvent.commitRun x).rampPublication x).station i :=
    (statPublication_reads ..).2.1 i
  rw [share]
  exact rampPublication_station (s.nextEvent.commitRun x) x i

theorem scored_stats : (s.scored x).stats = (s.statPublication x.events x.record.plant x.record.collapsed).stats :=
  statPublication_stats_congr (by simp) ..

/-! ### The held takes -/

/-- What the first held take of a publication meets (R80). -/
def State.takesView (s : State) (x : RunResult) : TakeView :=
  { record := x.record, scopes := s.runScopes x, entries := tabulate fun i => (s.station i).afterDeadline s.params }

theorem deadlines_shows : ((s.scored x).takeDeadlines.setHeldTakes []).Shows (s.takesView x) := by
  have entries := (takeDeadlines_result (s.scored x)).1
  have record : (s.scored x).takeDeadlines.published = x.record := by simp [(scored_kept s x).2.1]
  have scopes : (s.scored x).takeDeadlines.ramp.scopes = s.runScopes x := by simp [scored_scopes]
  refine ⟨record, scopes, fun i => ?_⟩
  have entry := entries i
  have late : ((s.scored x).station i).afterDeadline s.params =
      { (s.station i).afterDeadline s.params with ready := ((s.scored x).station i).ready } :=
    (congrArg (fun e : Station => e.afterDeadline s.params) (scored_station s x i)).trans (blind_afterDeadline ..)
  rw [(scored_kept s x).1, late] at entry
  rw [State.takesView, look_tabulate]
  exact entry

/-- The deadlines and the takes of a publication (R84, R80). -/
def State.granted (s : State) (x : RunResult) : State := (s.scored x).takeDeadlines.answerHeldTakes

theorem publish_eq : s.publish x = (s.granted x).evalReadyAll.answerHeldDispatch := rfl

theorem granted_eq : s.granted x = s.heldTakes.foldl State.answerHeldTake ((s.scored x).takeDeadlines.setHeldTakes []) := by
  have held : (s.scored x).takeDeadlines.heldTakes = s.heldTakes := by simp [(scored_kept s x).2.2.1]
  rw [← held]
  rfl

theorem deadlines_live : ((s.scored x).takeDeadlines.setHeldTakes []).halted = false :=
  (halted_congr (by simp)).trans (scored_kept s x).2.2.2.2.2.2.2.2

/-- What stands when the takes are answered, with their source events and notices. -/
theorem granted_result : (s.granted x).Shows ((s.takesView x).afterTakes s.heldTakes) ∧
    (s.granted x).stats = ((s.scored x).takeDeadlines.statEvents ((s.takesView x).takeEvents s.heldTakes)).stats ∧
    (s.scored x).takeDeadlines.Relays (s.granted x) := by
  obtain ⟨shows, stats, relays, -⟩ := answerEach_shows s.heldTakes (deadlines_shows s x) (deadlines_live s x)
  rw [granted_eq]
  have listed : (s.scored x).takeDeadlines.Relays ((s.scored x).takeDeadlines.setHeldTakes []) := .of_blocks rfl rfl rfl
  exact ⟨shows, stats.trans (statEvents_stats_congr (s := (s.scored x).takeDeadlines.setHeldTakes [])
    (t := (s.scored x).takeDeadlines) rfl _), listed.trans relays⟩

/-! ### The state a publication leaves -/

/-- Every entry after a publication (R84, R80, R88). -/
theorem publish_station (i : StationId) : (s.publish x).station i =
    { look ((s.takesView x).afterTakes s.heldTakes).entries i with ready := (s.publish x).readyCondition i } := by
  have found := evalReadyAll_readyFound (s.granted x)
  have entry := (answerHeldDispatch_reads (s.granted x).evalReadyAll).2 i
  have frame := answerHeldDispatch_frame (s.granted x).evalReadyAll
  have condition : (s.granted x).evalReadyAll.answerHeldDispatch.readyCondition i = (s.granted x).readyCondition i :=
    (readyCondition_of_fields frame.1 frame.2.2.1 frame.2.2.2.2.2.1 (by rw [entry]) (by rw [entry]) (by rw [entry])
      (by rw [entry]) (by rw [entry])).trans (found.condition i)
  rw [publish_eq, condition, entry, evalReadyAll_station, (granted_result s x).1.entries i]

/-- The accounting of a publication: the run's events, those of the deadlines and those of the takes (R142). -/
theorem publish_stats : ∃ ends, Interleaves (stationIds.map fun i => (s.station i).deadlineEvents s.params i) ends ∧
    (s.publish x).stats = ((s.statPublication x.events x.record.plant x.record.collapsed).statEvents
      (ends ++ (s.takesView x).takeEvents s.heldTakes)).stats := by
  obtain ⟨ends, whole, stats⟩ := (takeDeadlines_result (s.scored x)).2.2.1
  have events : ∀ i, ((s.scored x).station i).deadlineEvents (s.scored x).params i =
      (s.station i).deadlineEvents s.params i := fun i => by
    rw [(scored_kept s x).1, scored_station]
    rfl
  simp only [events] at whole
  have last : (s.publish x).stats = (s.granted x).stats := by simp [publish_eq]
  refine ⟨ends, whole, ?_⟩
  rw [last, (granted_result s x).2.1, statEvents_append]
  refine statEvents_stats_congr (stats.trans (statEvents_stats_congr (scored_stats s x) _)) _

/-- The notices of a publication behind the Ramp Monitor's share. -/
theorem scored_relays : (s.scored x).Relays (s.publish x) := by
  have dispatched : (s.granted x).evalReadyAll.Relays (s.publish x) :=
    .of_blocks (by simp [publish_eq]) (by simp [publish_eq]) (by simp [publish_eq])
  exact (((takeDeadlines_result (s.scored x)).2.1.trans (granted_result s x).2.2).trans (evalReadyAll_relays _)).trans dispatched

/-- No choice is used up unless the unit froze at the deadlines. -/
theorem publish_choices (calm : (s.statPublication x.events x.record.plant x.record.collapsed).stats.frozen = true ∨
    (s.publish x).stats.frozen = false) : (s.publish x).choices = s.choices := by
  obtain ⟨-, -, -, choices⟩ := takeDeadlines_result (s.scored x)
  have last : (s.publish x).choices = (s.scored x).takeDeadlines.choices := by simp [publish_eq, State.granted]
  rw [last, choices ?_, (scored_kept s x).2.2.2.2.2.1]
  refine calm.imp (fun frozen => (congrArg Stats.frozen (scored_stats s x)).trans frozen) fun unfrozen => ?_
  have counted : (s.publish x).stats = (s.granted x).stats := by simp [publish_eq]
  rw [counted] at unfrozen
  exact Bool.eq_false_iff.2 fun froze => Bool.false_ne_true (unfrozen.symm.trans ((granted_result s x).2.2.frozen froze))

/-- All that a publication tells the router. -/
theorem publish_voices : s.Voices (s.publish x) fun k i =>
    (s.rampNotices x).filter (·.isFor k i) ++ s.noticesOf (s.publish x) k i := by
  have share := rampPublication_voices (s.nextEvent.commitRun x) x
  have scored : ((s.nextEvent.commitRun x).rampPublication x).Relays (s.publish x) :=
    (statPublication_relays ..).trans (scored_relays s x)
  have entry := rampPublication_station (s.nextEvent.commitRun x) x
  have stats : ((s.nextEvent.commitRun x).rampPublication x).stats = s.stats := by simp
  generalize (s.nextEvent.commitRun x).rampPublication x = u at share scored entry stats
  have share : s.Voices u fun k i => (s.rampNotices x).filter (·.isFor k i) := share
  refine (share.trans scored.voices).of_eq fun k i other => ?_
  have flags : (u.station i).state = (s.station i).state ∧ (u.station i).statuses = (s.station i).statuses := by
    rw [entry]
    exact ⟨rfl, rfl⟩
  refine congrArg ((s.rampNotices x).filter (·.isFor k i) ++ ·) ?_
  cases k
  case raiseReady => exact absurd rfl other
  all_goals simp only [State.noticesOf, flags.1, newStatuses_congr flags.2 rfl, freezings_congr stats rfl]

end

end Sys2Proof.Machine

/-! PROOFS. PUBLICATION: the scopes, the answers and the pending sets a publication leaves. -/

namespace Sys2Proof.Machine

/-! ### The scopes -/

/-- One scope after the counts of a run (R127). -/
theorem countedScopes_look (s : State) (x : RunResult) (n : ScopeId) : look (s.countedScopes x) n =
    (let old := look s.ramp.scopes n
     let runs := if x.ramp.dUp ≤ x.run.params.tolSoft then min 255 (old.cleanRuns + 1) else 0
     if x.ramp.checked = false ∨ old.frozen = false then old
     else if 0 < x.run.params.freezeAuto ∧ x.run.params.freezeAuto ≤ runs then { frozen := false, cleanRuns := 0 }
     else { frozen := true, cleanRuns := runs }) := by
  unfold State.countedScopes
  cases x.ramp.checked with
  | false => simp
  | true =>
    simp only [if_true, look_tabulate, Scope.count, RunResult.clean]
    cases frozen : (look s.ramp.scopes n).frozen with
    | false => simp
    | true => simp [saturate, Scope.released]

theorem runScopes_look (s : State) (x : RunResult) (n : ScopeId) : look (s.runScopes x) n =
    if x.freezes = some n then { frozen := true, cleanRuns := 0 } else look (s.countedScopes x) n := by
  unfold State.runScopes
  cases x.freezes with
  | none => simp
  | some m => simp [look_put]

/-! ### The answers -/

section
variable (s : State) (x : RunResult)

/-- Off the storage port, a publication answers the held takes alone. -/
theorem publish_port {q : Port} (other : q ≠ storagePort) : (s.publish x).port q =
    (s.heldTakes.foldl State.answerHeldTake ((s.scored x).takeDeadlines.setHeldTakes [])).port q := by
  rw [publish_eq, answerHeldDispatch_port_other _ other, ← granted_eq]
  simp

theorem deadlines_port (q : Port) : ((s.scored x).takeDeadlines.setHeldTakes []).port q = s.port q :=
  port_congr (by simp [(scored_kept s x).2.2.2.2.1]) q

/-- A held take's port after a publication: it is answered from what the takes before it left (R80, R169). -/
theorem publish_port_held (once : (s.heldTakes.map HeldTake.station).Nodup) {n : Nat} {h : HeldTake}
    (place : s.heldTakes[n]? = some h) :
    let a := ((s.takesView x).afterTakes (s.heldTakes.take n)).reply s.params h.station
    (s.publish x).port (stationPort h.station) =
      { s.port (stationPort h.station) with
        handler := .idle
        replies := (s.port (stationPort h.station)).replies ++
          [{ kind := 4, tag := h.tag, code := a.code, payload := a.payload }] } := by
  obtain ⟨here, rfl⟩ := List.getElem?_eq_some_iff.1 place
  obtain ⟨shows, -, -, live, params⟩ := answerEach_shows (s.heldTakes.take n) (deadlines_shows s x) (deadlines_live s x)
  have answer := shows.reply s.heldTakes[n].station live
  have given : ((s.scored x).takeDeadlines.setHeldTakes []).params = s.params := by simp [(scored_kept s x).1]
  have split : s.heldTakes = s.heldTakes.take n ++ s.heldTakes[n] :: s.heldTakes.drop (n + 1) := by
    rw [← List.drop_eq_getElem_cons here, List.take_append_drop]
  have port := answerEach_port (split ▸ once) ((s.scored x).takeDeadlines.setHeldTakes [])
  rw [← split, deadlines_port, State.takeAnswer, answer, params, given] at port
  rw [publish_port s x (stationPort_ne_storagePort _), port]

theorem publish_port_station {i : StationId} (unheld : i ∉ s.heldTakes.map HeldTake.station) :
    (s.publish x).port (stationPort i) = s.port (stationPort i) := by
  have others : ∀ k ∈ s.heldTakes, stationPort k.station ≠ stationPort i := fun k mem same =>
    unheld (List.mem_map.2 ⟨k, mem, stationPort_injective same⟩)
  rw [publish_port s x (stationPort_ne_storagePort i), answerHeldTakes_port_other others, deadlines_port]

theorem publish_port_supervisor : (s.publish x).port supervisorPort = s.port supervisorPort := by
  rw [publish_port s x (by decide), answerHeldTakes_port_other fun k _ => stationPort_ne_supervisorPort k.station, deadlines_port]

/-- The storage port before its held take is answered. -/
theorem granted_storagePort : (s.granted x).evalReadyAll.port storagePort = s.port storagePort ∧
    (s.granted x).evalReadyAll.storage = s.storage ∧ (s.granted x).evalReadyAll.halted = false ∧
    (s.granted x).evalReadyAll.published = x.record := by
  refine ⟨?_, ?_, ?_, ?_⟩
  · rw [(evalReadyAll_reads _).2, granted_eq, answerHeldTakes_port_other fun k _ => stationPort_ne_storagePort k.station,
      deadlines_port]
  · simp [State.granted, (scored_kept s x).2.2.2.1]
  · exact (halted_congr (by simp [State.granted])).trans (scored_kept s x).2.2.2.2.2.2.2.2
  · simp [State.granted, (scored_kept s x).2.1]

theorem publish_storage : (s.publish x).storage = { s.storage with held := none } := by
  rw [publish_eq, answerHeldDispatch_storage, (granted_storagePort s x).2.1]

theorem publish_port_storage (none : s.storage.held = none) : (s.publish x).port storagePort = s.port storagePort := by
  rw [publish_eq, answerHeldDispatch_none _ (by rw [(granted_storagePort s x).2.1, none]), (granted_storagePort s x).1]

end

/-- The answer to a dispatch take while the engine is not HALTED (R98). -/
theorem answerDispatch_of_live {s : State} (live : s.halted = false) : answerDispatch s =
    (let r := s.published
     let b := if r.storageOnline then r.b else 0
     { code := if s.storage.state = .absent then .refusedState else if r.storageOnline then .ok else .fixed
       payload := if s.storage.state = .absent then 0
         else intervalTag r.number ++
           f8 (r.plant.code + (if r.collapsed then 8 else 0) + 16 * s.storage.state.code + (if b < 0 then 128 else 0)) ++
           f16 b.natAbs ++ f24 (if r.plant = .short then r.shortfall else if r.plant = .excess then r.excess else 0) }) := by
  unfold answerDispatch
  simp only [live, Bool.false_eq_true, if_false]
  split
  · rfl
  · split <;> rw [dispatchPayload_eq]

/-! ### The pending sets -/

section
variable (s : State) (x : RunResult)

theorem filter_noticeIf (c : Bool) (n : Notice) (p : Notice → Bool) :
    (if c then [n] else []).filter p = if c && p n then [n] else [] := by
  cases c
  · rfl
  · simp [List.filter_singleton]

/-- The listed notices of a publication, pair by pair. -/
theorem rampNotices_for :
    (s.rampNotices x).filter (·.isFor .rampSoft 0) = (if x.soft then [.fires .rampSoft 0 false] else []) ∧
    (s.rampNotices x).filter (·.isFor .rampHard 0) =
      (if x.hard then [.fires .rampHard 0 (!s.ramp.capture.isLocked)] else []) ∧
    (s.rampNotices x).filter (·.isFor .freeze 0) = s.scopeNotices x ∧
    (s.rampNotices x).filter (·.isFor .collapse 0) = [whileNotice .collapse x.record.collapsed] ∧
    (s.rampNotices x).filter (·.isFor .shortfall 0) = [whileNotice .shortfall (0 < x.record.shortfall)] ∧
    (s.rampNotices x).filter (·.isFor .excess 0) = [whileNotice .excess (0 < x.record.excess)] ∧
    (s.rampNotices x).filter (·.isFor .meterFallback 0) = [whileNotice .meterFallback x.sample.fallback] ∧
    (s.rampNotices x).filter (·.isFor .storeStale 0) = [] ∧
    ∀ k i, k = .stnMonitor ∨ k = .stnStale ∨ k = .statsFreeze → (s.rampNotices x).filter (·.isFor k i) = [] := by
  have listed : ∀ k i, (s.rampNotices x).filter (·.isFor k i) =
      (if x.soft && (CauseKind.rampSoft == k && 0 == i) then [.fires .rampSoft 0 false] else []) ++
      (if x.hard && (CauseKind.rampHard == k && 0 == i) then [.fires .rampHard 0 (!s.ramp.capture.isLocked)] else []) ++
      ((if s.thaws (s.countedScopes x) && (CauseKind.freeze == k && 0 == i) then [.ends .freeze 0] else []) ++
      (if s.freezesAnew x && (CauseKind.freeze == k && 0 == i) then [.fires .freeze 0 false] else [])) ++
      x.causeNotices.filter (·.isFor k i) := fun k i => by
    simp only [State.rampNotices, State.violationNotices, State.scopeNotices, State.thawNotices, List.filter_append,
      filter_noticeIf]
    rfl
  have causes : ∀ k i, x.causeNotices.filter (·.isFor k i) =
      (if CauseKind.collapse == k && 0 == i then [whileNotice .collapse x.record.collapsed] else []) ++
      (if CauseKind.shortfall == k && 0 == i then [whileNotice .shortfall (0 < x.record.shortfall)] else []) ++
      (if CauseKind.excess == k && 0 == i then [whileNotice .excess (0 < x.record.excess)] else []) ++
      (if CauseKind.meterFallback == k && 0 == i then [whileNotice .meterFallback x.sample.fallback] else []) := fun k i => by
    simp only [RunResult.causeNotices, List.filter_cons, whileNotice_isFor, List.filter_nil]
    cases k <;> simp
  simp only [listed, causes, State.scopeNotices, State.thawNotices]
  refine ⟨by simp, by simp, by simp, by simp, by simp, by simp, by simp, by simp, ?_⟩
  rintro k i (rfl | rfl | rfl) <;> simp

/-- The pending sets behind a publication: one pair hears its listed notices and those of the entries and the Statistics
Unit. -/
theorem publish_agrees {k : CauseKind} (other : k ≠ .raiseReady) (i : StationId) (q : Port) :
    (s.publish x).endEvent.router.AgreesAt
      (s.router.hears ((s.rampNotices x).filter (·.isFor k i) ++ s.noticesOf (s.publish x) k i)) k i q :=
  (settle_agrees ..).trans ((publish_voices s x).agrees other i q)

theorem publish_notices (i : StationId) (q : Port) : s.Notices (s.publish x).endEvent i q := by
  obtain ⟨path, heard, -, same⟩ := publish_voices s x
  have own : ∀ k j, k ≠ .raiseReady → k = .stnMonitor ∨ k = .stnStale ∨ k = .statsFreeze →
      path k j = s.noticesOf (s.publish x) k j := fun k j other listed => by
    refine (same k j other).trans ?_
    dsimp only
    rw [(rampNotices_for s x).2.2.2.2.2.2.2.2 k j listed, List.nil_append]
  have notices : s.Notices (s.publish x) i q :=
    heard.notices (own _ i (by decide) (.inl rfl)) (own _ i (by decide) (.inr (.inl rfl)))
      (own _ 0 (by decide) (.inr (.inr rfl))) q
  generalize s.publish x = u at notices ⊢
  exact notices.congr (fun k j => settle_agrees _ k j q) ⟨rfl, rfl⟩ rfl

/-- What a publication fires and ends of the plant's causes. -/
theorem publish_plant (q : Port) :
    let t := (s.publish x).endEvent
    let follows (k : CauseKind) (holds : Bool) : Prop :=
      t.router.AgreesAt (if holds then s.router.fire k 0 false else s.router.conditionEnded k 0) k 0 q
    t.router.AgreesAt (if x.soft then s.router.fire .rampSoft 0 false else s.router) .rampSoft 0 q ∧
      t.router.AgreesAt (if x.hard then s.router.fire .rampHard 0 (!s.ramp.capture.isLocked) else s.router) .rampHard 0 q ∧
      t.router.AgreesAt ((s.router.endedIf (s.thaws (s.countedScopes x)) .freeze 0).fired
        (if s.freezesAnew x then 1 else 0) .freeze 0) .freeze 0 q ∧
      follows .collapse x.record.collapsed ∧ follows .shortfall (0 < x.record.shortfall) ∧
      follows .excess (0 < x.record.excess) ∧ follows .meterFallback x.sample.fallback ∧
      t.router.AgreesAt s.router .storeStale 0 q := by
  intro t follows
  obtain ⟨soft, hard, freeze, collapse, shortfall, excess, fallback, stale, -⟩ := rampNotices_for s x
  have agrees : ∀ k ns, k ≠ .raiseReady → s.noticesOf (s.publish x) k 0 = [] →
      (s.rampNotices x).filter (·.isFor k 0) = ns → t.router.AgreesAt (s.router.hears ns) k 0 q := fun k ns other quiet own => by
    have heard := publish_agrees s x other 0 q
    rwa [own, quiet, List.append_nil] at heard
  have follow : ∀ k c, k ≠ .raiseReady → s.noticesOf (s.publish x) k 0 = [] →
      (s.rampNotices x).filter (·.isFor k 0) = [whileNotice k c] → follows k c := fun k c other quiet own => by
    have heard := agrees k _ other quiet own
    cases c <;> exact heard
  refine ⟨?_, ?_, ?_, follow _ _ (by decide) rfl collapse, follow _ _ (by decide) rfl shortfall,
    follow _ _ (by decide) rfl excess, follow _ _ (by decide) rfl fallback, agrees _ _ (by decide) rfl stale⟩
  · have heard := agrees _ _ (by decide) rfl soft
    revert heard
    cases x.soft <;> exact id
  · have heard := agrees _ _ (by decide) rfl hard
    revert heard
    cases x.hard <;> exact id
  · have heard := agrees _ _ (by decide) rfl freeze
    unfold State.scopeNotices State.thawNotices at heard
    revert heard
    cases s.thaws (s.countedScopes x) <;> cases s.freezesAnew x <;> exact id

end

end Sys2Proof.Machine

/-! PROOFS. PUBLICATION: a publication commits its run and answers the held takes. -/

namespace Sys2Proof.Machine

theorem endEvent_readyCondition (s : State) (i : StationId) : s.endEvent.readyCondition i = s.readyCondition i := rfl

theorem endEvent_routes (s : State) : s.endEvent.router.routes = s.router.routes := rfl

section
variable (s : State) (x : RunResult)

/-- The blocks that a publication leaves or commits (R6). -/
theorem publish_whole :
    let t := (s.publish x).endEvent
    t = { s with
      engine := { s.engine with
        run := .running
        history :=
          ({ number := x.run.number, sample := x.sample.value, source := x.sample.source, clamped := x.sample.clamped } ::
            s.engine.history).take 600
        queues := x.queues }
      published := x.record
      stations := t.stations
      heldTakes := []
      storage := { s.storage with held := none }
      ramp := t.ramp, stats := t.stats, router := t.router, ports := t.ports
      choices := t.choices, lastClear := none } := by
  intro t
  have params : (s.publish x).params = s.params := (publish_frame s x).1
  have pending : (s.publish x).pending = s.pending := (publish_frame s x).2
  have engine : (s.publish x).engine = { s.engine with
      run := .running
      history :=
        ({ number := x.run.number, sample := x.sample.value, source := x.sample.source, clamped := x.sample.clamped } ::
          s.engine.history).take 600
      queues := x.queues } := publish_engine s x
  have published := publish_published s x
  have storage := publish_storage s x
  have held : (s.publish x).heldTakes = [] := by simp [publish_eq, State.granted, answerHeldTakes_heldTakes]
  have clear : (s.publish x).lastClear = none := by simp [publish_eq, State.granted, (scored_kept s x).2.2.2.2.2.2.1]
  have ended : t = (s.publish x).endEvent := rfl
  clear_value t
  generalize s.publish x = u at *
  subst ended
  rw [← params, ← pending, ← engine, ← published, ← storage, ← held, ← clear]
  rfl

/-- Whether a publication releases a scope and leaves none frozen (R129). -/
theorem thaws_eq : s.thaws (s.countedScopes x) =
    (decide (∃ n, (look s.ramp.scopes n).frozen = true ∧ (look (s.countedScopes x) n).frozen = false) &&
      !decide (∃ n, (look (s.countedScopes x) n).frozen = true)) := by
  have frees : s.frees (s.countedScopes x) =
      decide (∃ n, (look s.ramp.scopes n).frozen = true ∧ (look (s.countedScopes x) n).frozen = false) :=
    Bool.eq_iff_iff.2 (frees_iff.trans decide_eq_true_iff.symm)
  have left : ({ s.ramp with scopes := s.countedScopes x } : Ramp).anyFrozen =
      decide (∃ n, (look (s.countedScopes x) n).frozen = true) :=
    Bool.eq_iff_iff.2 (anyFrozen_iff.trans decide_eq_true_iff.symm)
  rw [State.thaws, frees, left]

theorem freezesAnew_eq : s.freezesAnew x =
    decide (∃ n, x.freezes = some n ∧ (look (s.countedScopes x) n).frozen = false) := by
  unfold State.freezesAnew
  cases x.freezes with
  | none => simp
  | some n => cases frozen : (look (s.countedScopes x) n).frozen <;> simp [frozen]

end

/-- Settles O42: the blocks a publication commits (`publish_whole`), the entries and the answers by the views that the takes
hand on (`publish_station`, `publish_port_held`), and the pending sets by what the router hears (`publish_voices`). -/
theorem publicationCommitsRun : Obligations.PublicationCommitsRun := by
  intro s settled
  refine ⟨fun idle => ?_, fun run flight => ?_⟩
  · simp only [exec, execPublication]
    split
    · next flies => simp [State.runInFlight, flies] at idle
    · rfl
    · rfl
  intro x r soft hard up counted
  have ran : exec .publication s = .next (s.publish x).endEvent.runHandlers := by
    simp only [exec, execPublication, flight]
    rfl
  have scopes : ∀ n, look (s.countedScopes x) n = counted n := countedScopes_look s x
  have ramp : (s.publish x).endEvent.ramp =
      { s.ramp.setStatuses x with scopes := s.runScopes x, capture := s.ramp.capture.publish x } := by
    rw [← publish_ramp]
    simp
  have plain : (s.publish x).endEvent.stations = (s.publish x).stations ∧ (s.publish x).endEvent.stats = (s.publish x).stats ∧
      (s.publish x).endEvent.ports = (s.publish x).ports ∧ (s.publish x).endEvent.choices = (s.publish x).choices := by simp
  obtain ⟨stations, stats, ports, choices⟩ := plain
  have port : ∀ q, (s.publish x).endEvent.port q = (s.publish x).port q := port_congr ports
  have heard : ∀ k i q, (s.publish x).endEvent.router.AgreesAt (s.publish x).router k i q := fun k i q => settle_agrees _ k i q
  refine ⟨(s.publish x).endEvent, ran, fun quiet => ?_, publish_whole s x, ⟨?_, ?_, ?_, ?_, ?_⟩, fun n => ?_, ?_,
    fun g held => ?_, fun i unheld => ?_, fun none => ?_, ?_, ?_, fun q => ?_⟩
  · refine runHandlers_of_quiet fun q => ?_
    have none : ((s.publish x).port q).requests = [] := List.subset_nil.1 (quiet q ▸ publish_waitsFrom s x q)
    simp [State.canTake, none]
  · rw [ramp]
    rfl
  · rw [ramp]
    rfl
  · rw [ramp]
    rfl
  · rw [ramp]
    rfl
  · rw [ramp]
    rfl
  · rw [ramp]
    exact (runScopes_look s x n).trans (by rw [scopes])
  · intro met
    have views : ∀ n, met n = (s.takesView x).afterTakes (s.heldTakes.take n) := fun n => by
      simp only [met, ramp]
      rfl
    refine ⟨fun i => ?_, fun once n h place => ?_, ?_⟩
    · rw [station_congr stations, endEvent_readyCondition, views, List.take_length]
      exact publish_station s x i
    · rw [port, views]
      exact publish_port_held s x once place
    · intro counting takes
      have events : takes = (s.takesView x).takeEvents s.heldTakes := by
        rw [takeEvents_eq]
        simp only [takes, views] <;> rfl
      rw [stats, choices, events]
      exact ⟨publish_stats s x, publish_choices s x⟩
  · intro b
    rw [port, publish_eq, answerHeldDispatch_port _ (by rw [(granted_storagePort s x).2.1, held])]
    obtain ⟨before, record, live, published⟩ := granted_storagePort s x
    rw [answerDispatch_of_live live, before, record, published]
  · rw [port]
    exact publish_port_station s x unheld
  · rw [port]
    exact publish_port_storage s x none
  · rw [port]
    exact publish_port_supervisor s x
  · rw [endEvent_routes]
    exact (publish_voices s x).routes
  · intro follows released left froze
    obtain ⟨ofSoft, ofHard, ofFreeze, collapse, shortfall, excess, fallback, stale⟩ := publish_plant s x q
    rw [thaws_eq, freezesAnew_eq] at ofFreeze
    simp only [scopes] at ofFreeze
    refine ⟨endEvent_settled _ q, ofSoft, ofHard, ofFreeze, collapse, shortfall, excess, fallback, stale, fun i =>
      ⟨publish_notices s x i q, fun before after reaches => ?_, fun before after e mem kind inst => ?_⟩⟩
    · exact (publish_voices s x).rose before (station_congr stations i ▸ after) reaches (heard _ i q) (endEvent_settled _ q)
    · exact (publish_voices s x).fell before (station_congr stations i ▸ after) (heard _ i q) mem kind inst

end Sys2Proof.Machine
